-- ==== Sys2Proof/Word.lean ====
section
/-! DEFINITION. The widths the CORE uses (00_scope.md R5, R7): `u32`, `u16` and `u8` values, all unsigned. -/

namespace Sys2Proof

/-- A 32-bit register or operand value (R5 `XLEN`, R7 `u32`). -/
abbrev Word := BitVec 32

/-- A 16-bit accumulator or length field (R7 `u16`). -/
abbrev Half := BitVec 16

/-- One byte (R7 `u8`). -/
abbrev Byte := BitVec 8

end Sys2Proof
end

