-- ==== Sys2Proof/Machine/Transaction.lean ====
section
/-! DEFINITION. What the host can do to the CORE (46_host_interface.md R230): the register names and the five
transactions, and what a transaction hands back to the host. They are events at the interface, not commands (R99). -/

namespace Sys2Proof.Machine

/-- The sixteen interface registers, in the order of their indices 0 to 15 (10_state.md R20, R21). -/
inductive Reg where
  | cmd | status | res | pos
  | width | height | border | rbase
  | srca | srcn | val | crc
  | adler | tblidx | tbldat | reserved15
  deriving DecidableEq, Repr

/-- A host transaction with its arguments (R230). -/
inductive Transaction where
  /-- `WRREG n, v` (R232; R235 when the register is `CMD`). -/
  | wrreg (r : Reg) (v : Word)
  /-- `RDREG n` (R231). -/
  | rdreg (r : Reg)
  /-- `WRMEM a, b` (R233). -/
  | wrmem (a : Nat) (b : Byte)
  /-- `RDMEM a` (R236). -/
  | rdmem (a : Nat)
  /-- `RESET` (R234). -/
  | reset
  deriving DecidableEq, Repr

/-- What the last transaction returned to the host (the "returns" column of R230). -/
inductive Reply where
  | nothing
  | word (v : Word)
  | byte (b : Byte)
  deriving DecidableEq, Repr

end Sys2Proof.Machine
end

