-- ==== Sys2Proof/Syntax.lean ====
section
/-! DEFINITION. The twelve commands (30_encoding.md R92), one constructor per row of opcode_table.json.
No command carries an operand in its word (R90, R93), so no constructor has an argument. -/

namespace Sys2Proof

/-- The command set "QRPNG-CMD v1" (R2, R92). -/
inductive Instr where
  /-- TBLINIT, word 0x00000001: build the CRC table now if it is not built (R117). -/
  | tblinit
  /-- CRC32, word 0x00000002: CRC-32 of a span of MEM (R118). -/
  | crc32
  /-- ADLER32, word 0x00000003: Adler-32 of a span of MEM (R123). -/
  | adler32
  /-- BE32, word 0x00000004: endian swap of a word (R141). -/
  | be32
  /-- PUTBE32, word 0x00000005: write a word to the sink, most significant byte first (R143). -/
  | putbe32
  /-- PAD, word 0x00000006: write the scanline block (R157). -/
  | pad
  /-- ZWRAP, word 0x00000007: write the zlib stream (R177). -/
  | zwrap
  /-- SIG, word 0x00000008: write the PNG signature (R195). -/
  | sig
  /-- IHDR, word 0x00000009: write the IHDR chunk (R197). -/
  | ihdr
  /-- IDAT, word 0x0000000A: write the IDAT chunk (R200). -/
  | idat
  /-- IEND, word 0x0000000B: write the IEND chunk (R203). -/
  | iend
  /-- ENCPNG, word 0x0000000C: write the whole PNG file (R207). -/
  | encpng
  deriving DecidableEq, Repr

end Sys2Proof
end

