-- ==== Sys2Proof/WellFormed.lean ====
section
/-! DEFINITION. Well-formedness: of a command word (30_encoding.md R90, R92), of an instruction (no constructor has an
operand, so there is nothing to check in one), and of a host transaction (46_host_interface.md R230). -/

namespace Sys2Proof

/-- Bits 7:0 of a command word, the opcode (R90). -/
def opField (w : Word) : Byte := w.extractLsb' 0 8

/-- Bits 31:8 of a command word, which must be zero (R90). -/
def zeroField (w : Word) : BitVec 24 := w.extractLsb' 8 24

/-- A word that is one of the twelve commands: bits 31:8 zero and the opcode in 1 to 12 (R90, R92, R94). -/
def wordWf (w : Word) : Bool :=
  zeroField w == 0 && decide (1 ≤ (opField w).toNat) && decide ((opField w).toNat ≤ 12)

/-- Every command is well formed: none has a field that could be out of range (R90, R93). -/
def Instr.wf (i : Instr) : Bool :=
  match i with
  | .tblinit => true
  | .crc32 => true
  | .adler32 => true
  | .be32 => true
  | .putbe32 => true
  | .pad => true
  | .zwrap => true
  | .sig => true
  | .ihdr => true
  | .idat => true
  | .iend => true
  | .encpng => true

/-- A transaction that exists at the interface of a CORE with `memSize` bytes of MEM: a memory transaction needs
`0 ≤ a < MEM_SIZE` (R230, R233, R236); every other transaction exists. -/
def Machine.Transaction.wf (memSize : Nat) (t : Machine.Transaction) : Bool :=
  match t with
  | .wrreg _ _ => true
  | .rdreg _ => true
  | .wrmem a _ => decide (a < memSize)
  | .rdmem a => decide (a < memSize)
  | .reset => true

end Sys2Proof
end

