-- ==== Sys2Proof/Decode.lean ====
section
/-! DEFINITION. Decoding, total on every 32-bit word and rejecting by name (30_encoding.md R98, R94), and the encoder
(R92). A command is exchanged with the host as a number, not as bytes (20_memory.md R69), so there is no byte order
here. -/

namespace Sys2Proof

/-- Why a word is not a command (the two ways `decode` of R98 returns ILLEGAL). -/
inductive DecodeError where
  /-- a bit of 31:8 is set -/
  | zeroFieldSet
  /-- bits 7:0 are 0 or at least 13 -/
  | opcodeUnassigned
  deriving DecidableEq, Repr

/-- The opcode map of R92, read from opcode to command. -/
def ofOpcode (op : Byte) : Option Instr :=
  match op.toNat with
  | 0x01 => some .tblinit
  | 0x02 => some .crc32
  | 0x03 => some .adler32
  | 0x04 => some .be32
  | 0x05 => some .putbe32
  | 0x06 => some .pad
  | 0x07 => some .zwrap
  | 0x08 => some .sig
  | 0x09 => some .ihdr
  | 0x0A => some .idat
  | 0x0B => some .iend
  | 0x0C => some .encpng
  | _ => none

/-- `decode(w)` of R98. -/
def decode (w : Word) : Except DecodeError Instr :=
  if zeroField w ≠ 0 then .error .zeroFieldSet
  else
    match ofOpcode (opField w) with
    | some i => .ok i
    | none => .error .opcodeUnassigned

/-- The opcode map of R92, read from command to opcode. -/
def opcode (i : Instr) : Byte :=
  match i with
  | .tblinit => 0x01
  | .crc32 => 0x02
  | .adler32 => 0x03
  | .be32 => 0x04
  | .putbe32 => 0x05
  | .pad => 0x06
  | .zwrap => 0x07
  | .sig => 0x08
  | .ihdr => 0x09
  | .idat => 0x0A
  | .iend => 0x0B
  | .encpng => 0x0C

/-- The word of a command: format C of R90, zeros in 31:8 and the opcode in 7:0. -/
def encode (i : Instr) : Word := (0 : BitVec 24) ++ opcode i

/-- The decoder on a word given as a number of `nbits` bits, bit 0 the least significant bit of the one word (R90).
A command is exactly one 32-bit word (R95); a set bit above bit 31 belongs to no command. -/
def decodeTableWord (nbits w : Nat) : Option Instr :=
  let v := w % 2 ^ nbits
  if v < 2 ^ 32 then
    match decode (BitVec.ofNat 32 v) with
    | .ok i => some i
    | .error _ => none
  else none

end Sys2Proof
end

