-- ==== Sys2Proof/Machine/Bytes.lean ====
section
/-! DEFINITION. Byte order (00_scope.md R6, R8; 20_memory.md R68): the bytes of a word, most or least significant first. -/

namespace Sys2Proof.Machine

/-- "Byte k" of a 32-bit value, `v[8k+7:8k]` (R6). -/
def byteOf (k : Nat) (v : Word) : Byte := v.extractLsb' (8 * k) 8

/-- `be32(v)`: the four bytes, most significant first (R8). -/
def be32 (v : Word) : List Byte := [byteOf 3 v, byteOf 2 v, byteOf 1 v, byteOf 0 v]

/-- `le16(v)`: the two bytes, least significant first (R8). -/
def le16 (v : Half) : List Byte := [v.extractLsb' 0 8, v.extractLsb' 8 8]

/-- `bswap32(v)`: the value whose byte `k` is byte `3 - k` of `v` (R140). -/
def bswap32 (v : Word) : Word := byteOf 0 v ++ byteOf 1 v ++ byteOf 2 v ++ byteOf 3 v

end Sys2Proof.Machine
end

