-- ==== Sys2Proof/Config.lean ====
section
/-! DEFINITION. What the spec leaves OPEN (00_scope.md R5, R12; 92_eei_decisions.md, "Open parameters, collected"):
the size of MEM, the sink's answers, the value of `TBLDAT` and of the table's entries while `TV = 0`.
Each is an opaque constant: nothing in Lean can say what it is, so a claim proved is true whatever it is.
The parameters the spec FIXES (polynomial, moduli, limits, constant bytes) stand in Machine/Params.lean. -/

namespace Sys2Proof

/-- The environment's answer to one byte offered to the sink (R66). -/
inductive SinkAnswer where
  /-- the byte is appended to SINK -/
  | ok
  /-- SINK is unchanged -/
  | fail
  deriving DecidableEq, Repr, Inhabited

/-- `MEM_SIZE` of the machine at its start, a natural number from 0 to `2^32` (R5, R60; U12). DESIGN CHOICE, safe (log
entry 2). -/
opaque Config.memSize : Fin (2 ^ 32 + 1)

/-- The sink's answer at draw number `n`, under no law (R66; U9). DESIGN CHOICE (log entry 4). -/
opaque Config.sinkDraw : Nat → SinkAnswer

/-- What a read of `TBLDAT` with `TV = 0` returns at draw number `n` (R31; U1). DESIGN CHOICE, safe (log entry 5). -/
opaque Config.tbldatDraw : Nat → Word

/-- What entry `k` of `TABLE` holds after the reset that made draw number `n` (R43; U3). DESIGN CHOICE, safe (log entry 6). -/
opaque Config.tableDraw : Nat → Byte → Word

end Sys2Proof
end

