-- ==== Sys2Proof/Machine/State.lean ====
section
/-! DEFINITION. The state of the machine as plain data: every element of 10_state.md R20, the two spaces outside the CORE
(MEM and SINK, 20_memory.md R60, R65), and what the environment is to do next (host transactions, sink answers). -/

namespace Sys2Proof.Machine

/-- The outcome of a command, as `STATUS.ERR` reports it (10_state.md R23, 60_exceptions.md R250).
The numeric codes are `errBits` of Machine/Flags.lean; values 6 to 15 are never produced (U10). -/
inductive ErrCode where
  | ok | io | size | dim | addr | illegal
  deriving DecidableEq, Repr

/-- Why the machine stops with a fault. -/
inductive Fault where
  /-- Raised by a command meaning whose read of MEM would leave MEM, where `MemRead` is not defined (R62). SAFE: the
  spec says the CORE never issues such a read, and the model checks it at every read instead of assuming it. -/
  | coreReadOutsideMem
  deriving DecidableEq, Repr

/-- Why the model has no next state. -/
inductive Refusal where
  /-- Raised by an arm of `exec` for a command that has no meaning yet. SAFE: nothing is claimed of it. -/
  | notModelled (mnemonic : String)
  /-- Raised by the host transactions WRMEM and RDMEM at an address at or above `MEM_SIZE`: "not a transaction of the
  model" (R233, R236; U5 "refuse"). SAFE: nothing is claimed of such a transaction. -/
  | noSuchMemAddress
  deriving DecidableEq, Repr

/-- MEM: the bytes that are not as an unlisted address reads, by strictly rising address (R60; `Memory.wf`). -/
abbrev Memory := List Host.Cell

/-- A 256-entry table from its entry function (R38). -/
def tableOf (f : Byte → Word) : Vector Word 256 :=
  ⟨((List.range 256).map fun k => f (BitVec.ofNat 8 k)).toArray, by simp⟩

/-- The complete state (R20), MEM and SINK (R60, R65), and the environment's part. -/
structure State where
  /-- `CMD`, index 0: the last command word written (R22). -/
  cmd : Word
  /-- `TV`, `STATUS[0]`: the CRC table has been built (R39). -/
  tv : Bool
  /-- `ERR`, `STATUS[11:8]`: outcome of the last command (R23). -/
  err : ErrCode
  /-- `RES`, index 2: result of the last command that produces one (R24). -/
  res : Word
  /-- `POS`, index 3: output position counter of the write pass (R33). -/
  pos : Word
  /-- `WIDTH`, index 4 (R25). -/
  width : Word
  /-- `HEIGHT`, index 5 (R26). -/
  height : Word
  /-- `BORDER`, index 6 (R27). -/
  border : Word
  /-- `RBASE`, index 7 (R28). -/
  rbase : Word
  /-- `SRCA`, index 8 (R29). -/
  srca : Word
  /-- `SRCN`, index 9 (R30). -/
  srcn : Word
  /-- `VAL`, index 10 (R34). -/
  val : Word
  /-- `CRC`, index 11: the CRC engine's accumulator (R35). -/
  crc : Word
  /-- `S1`, `ADLER[15:0]` (R36). -/
  s1 : Half
  /-- `S2`, `ADLER[31:16]` (R36). -/
  s2 : Half
  /-- `TBLIDX`, index 13, 8 bits implemented (R32). -/
  tblidx : Byte
  /-- `TABLE[0..255]` (R38). -/
  table : Vector Word 256
  /-- `MEM_SIZE`, the platform's parameter: no step changes it (R5, R60). -/
  memSize : Nat
  /-- MEM (R60). -/
  mem : Memory
  /-- SINK: every byte accepted since the start state, first accepted first (R65). -/
  sink : List Byte
  /-- The host transactions still to be performed, the next one first (R230, R235). The model's own field:
  DESIGN CHOICE, safe (log entry 1). -/
  pending : List Transaction
  /-- What the last transaction returned (R230). The model's own field: DESIGN CHOICE, safe (log entry 7). -/
  reply : Reply
  /-- The sink's answers that are already settled, for the next writes in order (R66, R96). The model's own field:
  DESIGN CHOICE (log entry 4). -/
  sinkAnswers : List SinkAnswer
  /-- How many free values have been drawn; the number of the next draw (R12). The model's own field:
  DESIGN CHOICE, safe (log entry 5). -/
  draws : Nat
  deriving DecidableEq, Repr

/-- The machine right after the reset that power-on ends with (R280, R43): every register 0, `TV = 0`, the table's
entries drawn (draw number 0), MEM of the configured size with nothing listed, SINK empty, no transaction pending.
The values of `mem`, `sink` and of the model's own fields are DESIGN CHOICE (log entries 1 to 7, 13). -/
def State.reset : State where
  cmd := 0
  tv := false
  err := .ok
  res := 0
  pos := 0
  width := 0
  height := 0
  border := 0
  rbase := 0
  srca := 0
  srcn := 0
  val := 0
  crc := 0
  s1 := 0
  s2 := 0
  tblidx := 0
  table := tableOf (Config.tableDraw 0)
  memSize := Config.memSize.val
  mem := []
  sink := []
  pending := []
  reply := .nothing
  sinkAnswers := []
  draws := 1

/-- The outcome of a step of this machine. -/
abbrev Result := Host.Outcome State Fault Refusal

end Sys2Proof.Machine
end

