-- ==== Sys2Proof/Machine/Flags.lean ====
section
/-! DEFINITION. The two flags of the CORE, both in `STATUS` (10_state.md R23, R45): the code of `ERR`, the word a read of
`STATUS` gives, and the two ends of a command that write `ERR` (46_host_interface.md R239, 60_exceptions.md R252). -/

namespace Sys2Proof.Machine

/-- The numeric code of an outcome (R23, R250). -/
def errBits (e : ErrCode) : BitVec 4 :=
  match e with
  | .ok => 0
  | .io => 1
  | .size => 2
  | .dim => 3
  | .addr => 4
  | .illegal => 5

/-- `STATUS`: `TV` in bit 0, `ERR` in bits 11:8, every other bit 0 (R23, R231). -/
def statusWord (s : State) : Word := (0 : BitVec 20) ++ errBits s.err ++ (0 : BitVec 7) ++ BitVec.ofBool s.tv

/-- `raise Err(code)`, the CORE's one way of taking an error (R252): the code goes to `ERR` and the command ends. Nothing is
saved, no mode changes and no handler runs; what the command did before the raise stays done. There is no return from an
error (R260): the next transaction simply begins. -/
def raiseErr (e : ErrCode) (s : State) : State := { s with err := e }

/-- `x[STATUS].ERR <- 0`, the last line of a command that succeeds (R239). -/
def succeed (s : State) : State := { s with err := .ok }

end Sys2Proof.Machine
end

