-- ==== Sys2Proof/Machine/Params.lean ====
section
/-! DEFINITION. The parameters the spec fixes (00_scope.md R5) and the constant bytes the CORE emits. -/

namespace Sys2Proof.Machine

/-- `POLY`, the reflected CRC-32 polynomial (R5, R110). -/
def crcPoly : Word := 0xEDB88320#32

/-- `CRC_INIT` (R5, R113). -/
def crcInit : Word := 0xFFFFFFFF#32

/-- `CRC_XOROUT` (R5, R114). -/
def crcXorOut : Word := 0xFFFFFFFF#32

/-- `ADLER_MOD` (R5, R120). -/
def adlerMod : Nat := 65521

/-- `MAX_LEN`, the largest scanline block (R5, R150). -/
def maxLen : Nat := 65535

/-- `FILL`, the border sample (R5, R156). -/
def fillByte : Byte := 255

/-- `FILTER`, the filter-type byte "None" (R5, R155). -/
def filterByte : Byte := 0

/-- The zlib header, CMF then FLG (R171). -/
def zlibHeader : List Byte := [0x78, 0x9C]

/-- The stored-block header: final block, stored (R172). -/
def storedHeader : List Byte := [0x01]

/-- `SIGB`, the PNG signature (R194). -/
def sigBytes : List Byte := [137, 80, 78, 71, 13, 10, 26, 10]

/-- `ascii("IHDR")` (R8, R193). -/
def typeIhdr : List Byte := [0x49, 0x48, 0x44, 0x52]

/-- `ascii("IDAT")` (R8, R193). -/
def typeIdat : List Byte := [0x49, 0x44, 0x41, 0x54]

/-- The last five bytes of the IHDR record: bit depth 8, then colour type, compression, filter and interlace 0 (R198). -/
def ihdrFixed : List Byte := [8, 0, 0, 0, 0]

/-- `IENDB`, the fixed IEND chunk (R202). -/
def iendBytes : List Byte := [0x00, 0x00, 0x00, 0x00, 0x49, 0x45, 0x4E, 0x44, 0xAE, 0x42, 0x60, 0x82]

end Sys2Proof.Machine
end

