-- ==== Sys2Proof/Machine/Ops.lean ====
section
/-! DEFINITION. The named operations every command is made of: reads and writes of MEM (20_memory.md R60, R62), the CRC
table (41_checksum_engine.md R111, R112, R115), result registers, the sink and the write pass (R66, R67), the start of a
command, the error check that ends a command early (60_exceptions.md R252), and the reset (R234, R280). -/

namespace Sys2Proof.Machine

/-! ## MEM -/

/-- What an address of MEM that is not listed reads as. DESIGN CHOICE (log entry 3), UNSAFE: the spec takes a byte the host
never wrote as part of the start state (R60). -/
def memUnlisted : Byte := 0

/-- The canonical form of MEM: addresses strictly rising, and no entry equal to what an unlisted address reads as. -/
abbrev Memory.wf (m : Memory) : Prop := m.Pairwise (fun x y => x.1 < y.1) ∧ ∀ c ∈ m, c.2 ≠ memUnlisted

/-- The byte of MEM at an address (R60). -/
def memByte (m : Memory) (a : Nat) : Byte :=
  match m with
  | [] => memUnlisted
  | c :: m => if c.1 = a then c.2 else memByte m a

/-- An entry for a byte, or none where the byte is what an unlisted address reads as. -/
def memEntry (a : Nat) (b : Byte) : Memory := if b = memUnlisted then [] else [(a, b)]

/-- `MEM[a] <- b` (R233), keeping the canonical form. -/
def memSet (m : Memory) (a : Nat) (b : Byte) : Memory :=
  match m with
  | [] => memEntry a b
  | c :: m =>
    if a < c.1 then memEntry a b ++ c :: m
    else if a = c.1 then memEntry a b ++ m
    else c :: memSet m a b

/-- `MemRead(a, n)`: the `n` bytes at `a .. a+n-1`, defined only for `a + n ≤ MEM_SIZE`, the sum exact (R62). -/
def memRead (s : State) (a n : Nat) : Option (List Byte) :=
  if a + n ≤ s.memSize then some ((List.range n).map fun k => memByte s.mem (a + k)) else none

/-! ## The CRC table -/

/-- One of the 8 iterations of R111: a logical right shift, with the polynomial XORed in if the low bit was set. -/
def crcShift (c : Word) : Word := if c.getLsbD 0 then (c >>> 1) ^^^ crcPoly else c >>> 1

/-- `Tbl(n)` (R111). -/
def tbl (n : Byte) : Word := Nat.iterate crcShift 8 (n.setWidth 32)

/-- The table after a build: `TABLE[n] = Tbl(n)` for every `n` (R112). -/
def builtTable : Vector Word 256 := tableOf tbl

/-- `TABLE[k]` for an 8-bit index (R38). -/
def tableAt (t : Vector Word 256) (k : Byte) : Word := t[k.toNat]'k.isLt

/-- `BuildTable` (R112). -/
def buildTable (s : State) : State := { s with table := builtTable, tv := true }

/-- `EnsureTable` (R115): a table that is marked valid is not rebuilt. -/
def ensureTable (s : State) : State := if s.tv then s else buildTable s

/-! ## Registers a command writes -/

/-- The first line of every command rule: `x[CMD] <- ` its word (R22, R235). -/
def startCommand (i : Instr) (s : State) : State := { s with cmd := encode i }

/-- `x[RES] <- v` (R24). -/
def setRes (v : Word) (s : State) : State := { s with res := v }

/-- `x[CRC] <- v` (R35). -/
def setCrc (v : Word) (s : State) : State := { s with crc := v }

/-- `(x[S1], x[S2]) <- (a, b)`, two values that fit 16 bits (R36). -/
def setAdler (p : Nat × Nat) (s : State) : State := { s with s1 := BitVec.ofNat 16 p.1, s2 := BitVec.ofNat 16 p.2 }

/-! ## The sink -/

/-- The sink's answer to the next byte offered, and the state once that answer is used up: a settled answer if there is
one, else a draw (R66). -/
def nextAnswer (s : State) : SinkAnswer × State :=
  match s.sinkAnswers with
  | a :: rest => (a, { s with sinkAnswers := rest })
  | [] => (Config.sinkDraw s.draws, { s with draws := s.draws + 1 })

/-- `SinkWrite(b)` (R66): on `ok` the byte is appended to SINK, on `fail` SINK is unchanged. -/
def sinkWrite (b : Byte) (s : State) : SinkAnswer × State :=
  match nextAnswer s with
  | (.ok, s) => (.ok, { s with sink := s.sink ++ [b] })
  | (.fail, s) => (.fail, s)

/-- The loop of the write pass over the bytes still to be offered (R67): in order, each once, none after a `fail`. -/
def writeLoop (bytes : List Byte) (s : State) : State :=
  match bytes with
  | [] => succeed s
  | b :: rest =>
    match sinkWrite b s with
    | (.ok, s) => writeLoop rest { s with pos := s.pos + 1 }
    | (.fail, s) => raiseErr .io s

/-- `WritePass(s)` and the end of the command after it (R67, R239): `POS` starts at 0, a refused byte raises `IO`, and a
finished pass ends the command with `ERR` 0. -/
def writePass (bytes : List Byte) (s : State) : State := writeLoop bytes { s with pos := 0 }

/-- The last lines of every emitting command: `x[RES] <- len(s)` (R24), `WritePass(s)`, `x[STATUS].ERR <- 0`. -/
def emit (bytes : List Byte) (s : State) : State := writePass bytes (setRes (BitVec.ofNat 32 bytes.length) s)

/-! ## The shape of a command -/

/-- A command's check: the first error it finds ends the command before any other effect (R252, R259). -/
def afterCheck (check : Option ErrCode) (s : State) (k : State → Result) : Result :=
  match check with
  | some e => .next (raiseErr e s)
  | none => k s

/-- The use of bytes read from MEM. A read for which `MemRead` is not defined stops the machine; the checks of R119 and
R150 make it unreachable (R62). -/
def withBytes (bytes : Option (List Byte)) (s : State) (k : List Byte → State → State) : Result :=
  match bytes with
  | some bs => .next (k bs s)
  | none => .fault .coreReadOutsideMem

/-! ## Reset -/

/-- `RESET` (R234, R280): every register at the value of R43 and the table's entries drawn afresh. MEM, its size and SINK
are not touched; the environment's fields are not state of the CORE and stay. -/
def resetCore (s : State) : State :=
  { State.reset with
    table := tableOf (Config.tableDraw s.draws)
    memSize := s.memSize
    mem := s.mem
    sink := s.sink
    pending := s.pending
    reply := .nothing
    sinkAnswers := s.sinkAnswers
    draws := s.draws + 1 }

end Sys2Proof.Machine
end

