-- ==== Sys2Proof/Machine/Operands.lean ====
section
/-! DEFINITION. How a command gets its operands from the interface registers and MEM (30_encoding.md R93): exact
dimensions (43_pixel_assembler.md R151, R152), the checksum span (20_memory.md R64), the raster (R63), and the two checks
`CheckSpan` (41_checksum_engine.md R119) and `Validate` (R150). All arithmetic is on natural numbers (R7). -/

namespace Sys2Proof.Machine

/-- `W`, `H`, `B` as natural numbers (R151). -/
structure Dims where
  w : Nat
  h : Nat
  b : Nat
  deriving DecidableEq, Repr

/-- `W = x[WIDTH]`, `H = x[HEIGHT]`, `B = x[BORDER]` (R150, R151). -/
def dims (s : State) : Dims := ⟨s.width.toNat, s.height.toNat, s.border.toNat⟩

/-- `PW = W + 2*B` (R151). -/
def paddedWidth (d : Dims) : Nat := d.w + 2 * d.b

/-- `PH = H + 2*B` (R151). -/
def paddedHeight (d : Dims) : Nat := d.h + 2 * d.b

/-- `LEN = PH * (PW + 1)` (R152). -/
def blockLen (d : Dims) : Nat := paddedHeight d * (paddedWidth d + 1)

/-- `CheckSpan` (R119): the error, if any. -/
def checkSpan (s : State) : Option ErrCode :=
  if 0 < s.srcn.toNat ∧ s.memSize < s.srca.toNat + s.srcn.toNat then some .addr else none

/-- `Validate` (R150): the error of the first of the three checks that fails, if any. -/
def validate (s : State) : Option ErrCode :=
  if (dims s).w = 0 ∨ (dims s).h = 0 then some .dim
  else if maxLen < blockLen (dims s) then some .size
  else if s.memSize < s.rbase.toNat + (dims s).w * (dims s).h then some .dim
  else none

/-- The bytes of the checksum span (R64): the empty sequence when `SRCN = 0`, whatever `SRCA` is. -/
def spanBytes (s : State) : Option (List Byte) :=
  if s.srcn.toNat = 0 then some [] else memRead s s.srca.toNat s.srcn.toNat

/-- The `W * H` bytes of the raster from `RBASE` upward (R63). -/
def rasterBytes (s : State) : Option (List Byte) :=
  memRead s s.rbase.toNat ((dims s).w * (dims s).h)

/-- The frame of CRC32 and ADLER32: store the word, check the span, read it (R118, R123). -/
def spanCommand (i : Instr) (k : List Byte → State → State) (s : State) : Result :=
  afterCheck (checkSpan s) (startCommand i s) fun t => withBytes (spanBytes t) t k

/-- The frame of the raster commands that read the raster: store the word, validate, read it (R150, R157). -/
def rasterCommand (i : Instr) (k : List Byte → State → State) (s : State) : Result :=
  afterCheck (validate s) (startCommand i s) fun t => withBytes (rasterBytes t) t k

end Sys2Proof.Machine
end

