-- ==== Sys2Proof/Machine/Checksum.lean ====
section
/-! DEFINITION. The checksum engine (41_checksum_engine.md): the functions `crc_acc`, `crc32`, `adler_acc`, `adler32`, and the
commands TBLINIT, CRC32, ADLER32. -/

namespace Sys2Proof.Machine

/-! ## CRC-32 -/

/-- One byte of R113: `c <- TABLE[(c xor b)[7:0]] xor (c >> 8)`, from the table given. -/
def crcStep (t : Vector Word 256) (c : Word) (b : Byte) : Word :=
  tableAt t ((c ^^^ b.setWidth 32).extractLsb' 0 8) ^^^ (c >>> 8)

/-- The accumulator after all bytes, as the engine computes it from `TABLE` (R113). -/
def crcAccWith (t : Vector Word 256) (bytes : List Byte) : Word := bytes.foldl (crcStep t) crcInit

/-- `crc_acc(s)`: the same with `TABLE[k] = Tbl(k)` (R113). -/
def crcAcc (bytes : List Byte) : Word := crcAccWith builtTable bytes

/-- The final XOR of R114. -/
def crcFinal (c : Word) : Word := c ^^^ crcXorOut

/-- `crc32(s)` (R114). -/
def crc32 (bytes : List Byte) : Word := crcFinal (crcAcc bytes)

/-- A computation of `crc32` by the engine (R115, R118): build the table if it is not built, then leave the accumulator in
`CRC`. -/
def computeCrc (bytes : List Byte) (s : State) : State :=
  let t := ensureTable s
  setCrc (crcAccWith t.table bytes) t

/-! ## Adler-32 -/

/-- One byte of R120; the sums are exact and reduced after each addition (R122). -/
def adlerStep (p : Nat × Nat) (b : Byte) : Nat × Nat :=
  let s1 := (p.1 + b.toNat) % adlerMod
  (s1, (p.2 + s1) % adlerMod)

/-- `adler_acc(s)` (R120). -/
def adlerAcc (bytes : List Byte) : Nat × Nat := bytes.foldl adlerStep (1, 0)

/-- `adler32(s) = s2 * 65536 + s1` (R121). -/
def adler32 (bytes : List Byte) : Word := BitVec.ofNat 32 ((adlerAcc bytes).2 * 65536 + (adlerAcc bytes).1)

/-- A computation of `adler32` by the accumulator unit: leaves `adler_acc` in `S1`, `S2` (R36, R120). -/
def computeAdler (bytes : List Byte) (s : State) : State := setAdler (adlerAcc bytes) s

/-- The register `ADLER`: `S2` in 31:16 and `S1` in 15:0 (R36). -/
def adlerWord (s : State) : Word := s.s2 ++ s.s1

/-! ## Commands -/

/-- TBLINIT (R117). -/
def execTblinit (s : State) : Result := .next (succeed (ensureTable (startCommand .tblinit s)))

/-- The effect of CRC32 once its span is read (R118): `RES` is the complement of `CRC`. -/
def crcOfSpan (span : List Byte) (s : State) : State :=
  let t := computeCrc span s
  succeed (setRes (crcFinal t.crc) t)

/-- CRC32 (R118). -/
def execCrc32 (s : State) : Result := spanCommand .crc32 crcOfSpan s

/-- The effect of ADLER32 once its span is read (R123): `RES` is `S2 * 65536 + S1`. -/
def adlerOfSpan (span : List Byte) (s : State) : State :=
  let t := computeAdler span s
  succeed (setRes (adlerWord t) t)

/-- ADLER32 (R123). -/
def execAdler32 (s : State) : Result := spanCommand .adler32 adlerOfSpan s

end Sys2Proof.Machine
end

