-- ==== Sys2Proof/Machine/Pixel.lean ====
section
/-! DEFINITION. The border-pad pixel assembler (43_pixel_assembler.md): the scanline block and the command PAD. -/

namespace Sys2Proof.Machine

/-- `RasterRow(k)`: row `k` of the raster, left to right (R154, R63). -/
def rasterRow (d : Dims) (raster : List Byte) (k : Nat) : List Byte := (raster.drop (k * d.w)).take d.w

/-- The samples of padded row `r` (R154, "written out by kind of row"). -/
def paddedRow (d : Dims) (raster : List Byte) (r : Nat) : List Byte :=
  if d.b ≤ r ∧ r < d.b + d.h then
    List.replicate d.b fillByte ++ rasterRow d raster (r - d.b) ++ List.replicate d.b fillByte
  else List.replicate (paddedWidth d) fillByte

/-- `Scanline(r)`: the filter byte, then the samples of padded row `r` (R154). -/
def scanline (d : Dims) (raster : List Byte) (r : Nat) : List Byte := filterByte :: paddedRow d raster r

/-- `SLB`: the scanlines 0 to `PH - 1`, one after another (R154). -/
def scanlineBlock (d : Dims) (raster : List Byte) : List Byte :=
  (List.range (paddedHeight d)).flatMap (scanline d raster)

/-- PAD (R157). -/
def execPad (s : State) : Result :=
  rasterCommand .pad (fun raster t => emit (scanlineBlock (dims t) raster) t) s

end Sys2Proof.Machine
end

