-- ==== Sys2Proof/Machine/Zlib.lean ====
section
/-! DEFINITION. The zlib stream wrapper (44_zlib_wrapper.md): the stream and the command ZWRAP. -/

namespace Sys2Proof.Machine

/-- `le16(LEN) ++ le16(not16(LEN))` (R173). -/
def lenFields (len : Nat) : List Byte := le16 (BitVec.ofNat 16 len) ++ le16 (~~~ BitVec.ofNat 16 len)

/-- `ZS` around a scanline block of `len` bytes (R170, R175). -/
def zlibStream (len : Nat) (block : List Byte) : List Byte :=
  zlibHeader ++ storedHeader ++ lenFields len ++ block ++ be32 (adler32 block)

/-- `ZS` of a picture (R175). -/
def zlibOf (d : Dims) (raster : List Byte) : List Byte := zlibStream (blockLen d) (scanlineBlock d raster)

/-- ZWRAP (R177). -/
def execZwrap (s : State) : Result :=
  rasterCommand .zwrap
    (fun raster t => emit (zlibOf (dims t) raster) (computeAdler (scanlineBlock (dims t) raster) t)) s

end Sys2Proof.Machine
end

