-- ==== Sys2Proof/Machine/Chunk.lean ====
section
/-! DEFINITION. The PNG chunk framer (45_chunk_framer.md): the chunk envelope, the four parts of a file, and the commands
SIG, IHDR, IDAT, IEND, ENCPNG. -/

namespace Sys2Proof.Machine

/-- The envelope of R190 around type `t` and data `d`, its CRC field given: the length counts the data only (R191). -/
def chunkWith (t d : List Byte) (crc : Word) : List Byte :=
  be32 (BitVec.ofNat 32 d.length) ++ t ++ d ++ be32 crc

/-- `Chunk(t, d)` (R190, R192). -/
def chunk (t d : List Byte) : List Byte := chunkWith t d (crc32 (t ++ d))

/-- `IHDRrec` (R198). -/
def ihdrRecord (d : Dims) : List Byte :=
  be32 (BitVec.ofNat 32 (paddedWidth d)) ++ be32 (BitVec.ofNat 32 (paddedHeight d)) ++ ihdrFixed

/-- `IHDRB` (R196). -/
def ihdrBytes (d : Dims) : List Byte := chunk typeIhdr (ihdrRecord d)

/-- `IDATB` (R199). -/
def idatBytes (d : Dims) (raster : List Byte) : List Byte := chunk typeIdat (zlibOf d raster)

/-- `PNGB` (R205). -/
def pngBytes (d : Dims) (raster : List Byte) : List Byte := sigBytes ++ ihdrBytes d ++ idatBytes d raster ++ iendBytes

/-- The chunk image after its `crc32` has been computed: its CRC field is `be32(not32(x[CRC]))` (R197). -/
def framed (t d : List Byte) (s : State) : List Byte := chunkWith t d (crcFinal s.crc)

/-- The compute phase of IHDR (R197). -/
def ihdrCompute (s : State) : State := computeCrc (typeIhdr ++ ihdrRecord (dims s)) s

/-- The compute phase of IDAT (R200): the Adler-32 of the scanline block, then the CRC of type and stream. -/
def idatCompute (raster : List Byte) (s : State) : State :=
  computeCrc (typeIdat ++ zlibOf (dims s) raster) (computeAdler (scanlineBlock (dims s) raster) s)

/-- SIG (R195). -/
def execSig (s : State) : Result := .next (emit sigBytes (startCommand .sig s))

/-- IHDR (R197). It reads no byte of MEM; `RBASE` matters to `Validate` only. -/
def execIhdr (s : State) : Result :=
  afterCheck (validate s) (startCommand .ihdr s) fun t =>
    .next (emit (framed typeIhdr (ihdrRecord (dims t)) (ihdrCompute t)) (ihdrCompute t))

/-- IDAT (R200). -/
def execIdat (s : State) : Result :=
  rasterCommand .idat
    (fun raster t => emit (framed typeIdat (zlibOf (dims t) raster) (idatCompute raster t)) (idatCompute raster t)) s

/-- IEND (R203). -/
def execIend (s : State) : Result := .next (emit iendBytes (startCommand .iend s))

/-- The work of ENCPNG once the raster is read (R207): the CRC of IHDR first, that of IDAT last, then one write pass over the
four parts. -/
def encodeFile (raster : List Byte) (s : State) : State :=
  let a := ihdrCompute s
  let z := idatCompute raster a
  emit (sigBytes ++ framed typeIhdr (ihdrRecord (dims s)) a ++ framed typeIdat (zlibOf (dims s) raster) z ++ iendBytes) z

/-- ENCPNG (R207). -/
def execEncpng (s : State) : Result := rasterCommand .encpng encodeFile s

end Sys2Proof.Machine
end

