-- ==== Sys2Proof/Machine/Endian.lean ====
section
/-! DEFINITION. The endian utility (42_endian_utility.md): the commands BE32 and PUTBE32. `HOST_ORDER` is little, so
`to_big_endian_u32` is `bswap32` (R142). -/

namespace Sys2Proof.Machine

/-- `to_big_endian_u32(v)` with `HOST_ORDER = little` (R142; log entry 14). -/
def toBigEndian (v : Word) : Word := bswap32 v

/-- BE32 (R141). -/
def execBe32 (s : State) : Result := .next (succeed (setRes (toBigEndian s.val) (startCommand .be32 s)))

/-- PUTBE32 (R143). -/
def execPutbe32 (s : State) : Result := .next (emit (be32 s.val) (startCommand .putbe32 s))

end Sys2Proof.Machine
end

