-- ==== Sys2Proof/Machine/Dispatch.lean ====
section
/-! DEFINITION. One arm per command (30_encoding.md R92): which meaning a command has. -/

namespace Sys2Proof.Machine

def exec (i : Instr) (s : State) : Host.Outcome State Fault Refusal :=
  match i with
  -- checksum engine
  | .tblinit => Sys2Proof.Machine.execTblinit s
  | .crc32 => Sys2Proof.Machine.execCrc32 s
  | .adler32 => Sys2Proof.Machine.execAdler32 s
  -- endian utility
  | .be32 => Sys2Proof.Machine.execBe32 s
  | .putbe32 => Sys2Proof.Machine.execPutbe32 s
  -- pixel assembler
  | .pad => Sys2Proof.Machine.execPad s
  -- zlib wrapper
  | .zwrap => Sys2Proof.Machine.execZwrap s
  -- chunk framer
  | .sig => Sys2Proof.Machine.execSig s
  | .ihdr => Sys2Proof.Machine.execIhdr s
  | .idat => Sys2Proof.Machine.execIdat s
  | .iend => Sys2Proof.Machine.execIend s
  | .encpng => Sys2Proof.Machine.execEncpng s

end Sys2Proof.Machine
end

