-- ==== Sys2Proof/Machine/HostPort.lean ====
section
/-! DEFINITION. The host's five transactions (46_host_interface.md R230 to R236), the issue of a command (R235), and the order
in which they are performed (20_memory.md R75). -/

namespace Sys2Proof.Machine

/-! ## Register indices -/

/-- The index of a register (10_state.md R20). -/
def regIndex (r : Reg) : Nat :=
  match r with
  | .cmd => 0
  | .status => 1
  | .res => 2
  | .pos => 3
  | .width => 4
  | .height => 5
  | .border => 6
  | .rbase => 7
  | .srca => 8
  | .srcn => 9
  | .val => 10
  | .crc => 11
  | .adler => 12
  | .tblidx => 13
  | .tbldat => 14
  | .reserved15 => 15

/-- The sixteen registers in the order of their indices (R20). -/
def allRegs : List Reg :=
  [.cmd, .status, .res, .pos, .width, .height, .border, .rbase,
   .srca, .srcn, .val, .crc, .adler, .tblidx, .tbldat, .reserved15]

/-- The register at an index; an index above 15 does not exist (R37, R230). -/
def regAtIndex (n : Nat) : Option Reg := allRegs[n]?

/-- The register at a byte offset from the CORE's base: only whole aligned 32-bit accesses exist (R21, R71, U6). -/
def regAtOffset (off : Nat) : Option Reg := if off % 4 = 0 then regAtIndex (off / 4) else none

/-! ## Register reads and writes -/

/-- `TBLDAT` (R31): the entry `TBLIDX` selects while `TV = 1`; while `TV = 0` a draw, which uses up one draw number. -/
def readTbldat (s : State) : Word × State :=
  if s.tv then (tableAt s.table s.tblidx, s) else (Config.tbldatDraw s.draws, { s with draws := s.draws + 1 })

/-- `RDREG n` (R231): the value read and the state after. No read changes any element of R20, MEM or SINK. -/
def readReg (r : Reg) (s : State) : Word × State :=
  match r with
  | .cmd => (s.cmd, s)
  | .status => (statusWord s, s)
  | .res => (s.res, s)
  | .pos => (s.pos, s)
  | .width => (s.width, s)
  | .height => (s.height, s)
  | .border => (s.border, s)
  | .rbase => (s.rbase, s)
  | .srca => (s.srca, s)
  | .srcn => (s.srcn, s)
  | .val => (s.val, s)
  | .crc => (s.crc, s)
  | .adler => (adlerWord s, s)
  | .tblidx => (s.tblidx.setWidth 32, s)
  | .tbldat => readTbldat s
  | .reserved15 => (0, s)

/-- The issue of a command word (R235): a word that is no command is stored in `CMD` and raises `ILLEGAL` with no other effect
(60_exceptions.md R256); a command runs its rule, whose first line stores the word. -/
def issue (w : Word) (s : State) : Result :=
  match decode w with
  | .ok i => exec i s
  | .error _ => .next (raiseErr .illegal { s with cmd := w })

/-- `WRREG n, v` (R232): a write to a read-only or reserved register is ignored. -/
def writeReg (r : Reg) (v : Word) (s : State) : Result :=
  match r with
  | .cmd => issue v s
  | .status => .next s
  | .res => .next s
  | .pos => .next s
  | .width => .next { s with width := v }
  | .height => .next { s with height := v }
  | .border => .next { s with border := v }
  | .rbase => .next { s with rbase := v }
  | .srca => .next { s with srca := v }
  | .srcn => .next { s with srcn := v }
  | .val => .next { s with val := v }
  | .crc => .next s
  | .adler => .next s
  | .tblidx => .next { s with tblidx := v.extractLsb' 0 8 }
  | .tbldat => .next s
  | .reserved15 => .next s

/-! ## Transactions -/

/-- What a transaction hands back to the host (R230). -/
def setReply (r : Reply) (s : State) : State := { s with reply := r }

/-- One host transaction, to its end (R230, R75). A memory transaction at or above `MEM_SIZE` is not a transaction of this
interface (R233, R236; U5). -/
def perform (t : Transaction) (s : State) : Result :=
  match t with
  | .wrreg r v => writeReg r v (setReply .nothing s)
  | .rdreg r => .next (setReply (.word (readReg r s).1) (readReg r s).2)
  | .wrmem a b =>
    if a < s.memSize then .next (setReply .nothing { s with mem := memSet s.mem a b })
    else .refused .noSuchMemAddress
  | .rdmem a =>
    if a < s.memSize then .next (setReply (.byte (memByte s.mem a)) s) else .refused .noSuchMemAddress
  | .reset => .next (resetCore s)

/-- One step: the next pending transaction is performed whole (R11, R235). With none pending the CORE does nothing (R281). -/
def hostStep (s : State) : Result :=
  match s.pending with
  | [] => .next s
  | t :: rest => perform t { s with pending := rest }

/-- `s` with the host about to write the command word of `nbits` bits `w` to `CMD`, before anything else it was to do (R91). -/
def enqueueWord (s : State) (nbits w : Nat) : State :=
  { s with pending := .wrreg .cmd (BitVec.ofNat 32 (w % 2 ^ nbits)) :: s.pending }

end Sys2Proof.Machine
end

