-- ==== Sys2Proof/Machine/Step.lean ====
section
/-! DEFINITION. One step of the machine: one host transaction, which may be one whole command (00_scope.md R11). -/

namespace Sys2Proof.Machine

/-- One step (R11, R75, R235). -/
def step (s : State) : Host.Outcome State Fault Refusal := hostStep s

/-- `s` with a command word placed where the next step takes it: the host's next transaction writes it to `CMD` (R91). -/
def State.withFetchWord (s : State) (nbits w : Nat) : State := enqueueWord s nbits w

end Sys2Proof.Machine
end

