-- ==== Sys2Proof/Machine/Script.lean ====
section
/-! DEFINITION. The host script (30_encoding.md R96, R97): its lines, and the transactions each line stands for. -/

namespace Sys2Proof.Machine

/-- A line of a host script (R96) or a pseudo-instruction (R97). -/
inductive ScriptLine where
  | reset
  | wrreg (r : Reg) (v : Word)
  | rdreg (r : Reg)
  | wrmem (a : Nat) (b : Byte)
  | rdmem (a : Nat)
  /-- one of the twelve mnemonics, alone on the line -/
  | command (i : Instr)
  | ldmem (a : Nat) (bytes : List Byte)
  | setdim (w h b base : Word)
  | setspan (a n : Word)
  | encode (w h b base : Word)
  deriving DecidableEq, Repr

/-- A mnemonic stands for `WRREG CMD, <word>` (R96). -/
def commandWrite (i : Instr) : Transaction := .wrreg .cmd (encode i)

/-- `LDMEM` (R97): one `WRMEM` per byte, at rising addresses. -/
def ldmemWrites (a : Nat) (bytes : List Byte) : List Transaction :=
  match bytes with
  | [] => []
  | b :: rest => .wrmem a b :: ldmemWrites (a + 1) rest

/-- `SETDIM` (R97). -/
def setdimWrites (w h b base : Word) : List Transaction :=
  [.wrreg .width w, .wrreg .height h, .wrreg .border b, .wrreg .rbase base]

/-- The transactions of a line (R96, R97). -/
def expandLine (l : ScriptLine) : List Transaction :=
  match l with
  | .reset => [.reset]
  | .wrreg r v => [.wrreg r v]
  | .rdreg r => [.rdreg r]
  | .wrmem a b => [.wrmem a b]
  | .rdmem a => [.rdmem a]
  | .command i => [commandWrite i]
  | .ldmem a bytes => ldmemWrites a bytes
  | .setdim w h b base => setdimWrites w h b base
  | .setspan a n => [.wrreg .srca a, .wrreg .srcn n]
  | .encode w h b base => setdimWrites w h b base ++ [commandWrite .encpng]

/-- The transactions of a script, in order. -/
def expandScript (ls : List ScriptLine) : List Transaction := ls.flatMap expandLine

/-- `SINK fail@k` (R96): not a transaction but a statement of the sink's answers, `ok` for bytes 0 to `k - 1` of the next
emitting command and `fail` for byte `k`. -/
def sinkFailAt (k : Nat) (s : State) : State := { s with sinkAnswers := List.replicate k .ok ++ [.fail] }

/-- `SINK ok` (R96) for a command that writes `n` bytes. -/
def sinkOk (n : Nat) (s : State) : State := { s with sinkAnswers := List.replicate n .ok }

end Sys2Proof.Machine
end

