-- ==== Sys2Proof/Safety.lean ====
section
/-! DEFINITION. What counts as a good state and a safe step, and the vocabulary claims are stated in: the invariants of
10_state.md R41, the outcome of a write pass seen from outside (20_memory.md R67), and the spec's second, independent
definitions of a checksum (41_checksum_engine.md R116) and of a padded sample (43_pixel_assembler.md R156). -/

namespace Sys2Proof.Machine

/-! ## Invariants -/

/-- While `TV = 1` the table holds `Tbl(n)` at every `n` (R39, R41 (d)). -/
def TableOk (s : State) : Prop := s.tv = true → s.table = builtTable

/-- What holds after reset and after every transaction (R41 (a), (d), (f)), with what the model adds: MEM in canonical form,
inside its size, and of a size R60 allows. R41 (b), (c) and (e) hold of every state, by the types of its fields. -/
structure CoreInv (s : State) : Prop where
  s1_lt : s.s1.toNat < 65521
  s2_lt : s.s2.toNat < 65521
  tableOk : TableOk s
  pos_le : s.pos.toNat ≤ 65603
  memWf : Memory.wf s.mem
  memInside : ∀ c ∈ s.mem, c.1 < s.memSize
  memSize_le : s.memSize ≤ 2 ^ 32

/-- A step that gives a next state, or is refused because it is no transaction of the interface; never a fault. -/
def SafeStep (s : State) : Prop := ∀ f, step s ≠ .fault f

/-! ## The sink, seen from outside -/

/-- The sink's answer to the `k`-th byte offered from `s` on, counted from 0 (R66). -/
def answerAt (s : State) (k : Nat) : SinkAnswer :=
  match s.sinkAnswers[k]? with
  | some a => a
  | none => Config.sinkDraw (s.draws + (k - s.sinkAnswers.length))

/-- How many bytes of a write pass of `n` bytes the sink accepts: those before the first `fail` (R67). -/
def acceptedCount (s : State) (n : Nat) : Nat := ((List.range n).takeWhile fun k => answerAt s k = .ok).length

/-- How many answers a write pass of `n` bytes uses up: no byte is offered after a `fail` (R67). -/
def answersUsed (s : State) (n : Nat) : Nat := min n (acceptedCount s n + 1)

/-- The state after the write pass of `bytes` (R67), in one equation: `POS` counts the accepted bytes, SINK has received
exactly those, `ERR` is `IO` if one was refused, and the answers given are used up. -/
def afterPass (bytes : List Byte) (s : State) : State :=
  { s with
    pos := BitVec.ofNat 32 (acceptedCount s bytes.length)
    err := if acceptedCount s bytes.length = bytes.length then .ok else .io
    sink := s.sink ++ bytes.take (acceptedCount s bytes.length)
    sinkAnswers := s.sinkAnswers.drop (answersUsed s bytes.length)
    draws := s.draws + (answersUsed s bytes.length - s.sinkAnswers.length) }

/-- Every one of the next `n` writes is answered `ok`. -/
def SinkAccepts (s : State) (n : Nat) : Prop := ∀ k < n, answerAt s k = .ok

/-! ## Second definitions from the spec -/

/-- One byte of the bit-serial form of R116. -/
def crcSerialStep (c : Word) (b : Byte) : Word := Nat.iterate crcShift 8 (c ^^^ b.setWidth 32)

/-- The bit-serial form of the CRC (R116). -/
def crcSerial (bytes : List Byte) : Word := bytes.foldl crcSerialStep crcInit

/-- The bytes of MEM at `a .. a+n-1` (R62, R64). -/
def memSpan (s : State) (a n : Nat) : List Byte := (List.range n).map fun k => memByte s.mem (a + k)

/-- The checksum span of R64. -/
def spanOf (s : State) : List Byte := memSpan s s.srca.toNat s.srcn.toNat

/-- The raster of R63. -/
def rasterOf (s : State) : List Byte := memSpan s s.rbase.toNat ((dims s).w * (dims s).h)

/-- `Sample(r, c)` (R156), read from MEM at `x[RBASE] + (r - B) * W + (c - B)` inside the picture and 255 in the border. -/
def sampleAt (s : State) (r c : Nat) : Byte :=
  if (dims s).b ≤ r ∧ r < (dims s).b + (dims s).h ∧ (dims s).b ≤ c ∧ c < (dims s).b + (dims s).w then
    memByte s.mem (s.rbase.toNat + (r - (dims s).b) * (dims s).w + (c - (dims s).b))
  else 255

/-- The three checks of `Validate` pass (R150). -/
def Valid (s : State) : Prop :=
  s.width.toNat ≠ 0 ∧ s.height.toNat ≠ 0 ∧
  (s.height.toNat + 2 * s.border.toNat) * (s.width.toNat + 2 * s.border.toNat + 1) ≤ 65535 ∧
  s.rbase.toNat + s.width.toNat * s.height.toNat ≤ s.memSize

/-- The span check of R119 passes. -/
def SpanInside (s : State) : Prop := s.srcn.toNat = 0 ∨ s.srca.toNat + s.srcn.toNat ≤ s.memSize

/-- The five raster commands (glossary of 00_scope.md; R150). -/
def isRaster (i : Instr) : Bool :=
  match i with
  | .pad => true
  | .zwrap => true
  | .ihdr => true
  | .idat => true
  | .encpng => true
  | .tblinit => false
  | .crc32 => false
  | .adler32 => false
  | .be32 => false
  | .putbe32 => false
  | .sig => false
  | .iend => false

/-- The eight emitting commands (glossary of 00_scope.md). -/
def isEmitting (i : Instr) : Bool :=
  match i with
  | .putbe32 => true
  | .pad => true
  | .zwrap => true
  | .sig => true
  | .ihdr => true
  | .idat => true
  | .iend => true
  | .encpng => true
  | .tblinit => false
  | .crc32 => false
  | .adler32 => false
  | .be32 => false

/-- The five commands that perform `EnsureTable` (R115). -/
def usesTable (i : Instr) : Bool :=
  match i with
  | .tblinit => true
  | .crc32 => true
  | .ihdr => true
  | .idat => true
  | .encpng => true
  | .adler32 => false
  | .be32 => false
  | .putbe32 => false
  | .pad => false
  | .zwrap => false
  | .sig => false
  | .iend => false

end Sys2Proof.Machine
end

