-- ==== Sys2Proof/Certificates/Slice0/Obligations.lean ====
section
/-! DEFINITION. The statements for the provers. Each names the rules of spec/ it rests on; OBLIGATIONS.json lists them.
A result statement is an equation `exec i s = .next t` with `t` written out, so it says where the command completes, what it
writes and, by the fields not named, what it leaves unchanged. -/

open Sys2Proof Sys2Proof.Machine

/-! ## Encoding -/

/-- The twelve words of R92, written out, decode to the commands they stand for; the words at the edges of R94 do not. -/
def Obligations.TableWordsDecode : Prop :=
  decode 0x00000001 = .ok .tblinit ∧ decode 0x00000002 = .ok .crc32 ∧ decode 0x00000003 = .ok .adler32 ∧
  decode 0x00000004 = .ok .be32 ∧ decode 0x00000005 = .ok .putbe32 ∧ decode 0x00000006 = .ok .pad ∧
  decode 0x00000007 = .ok .zwrap ∧ decode 0x00000008 = .ok .sig ∧ decode 0x00000009 = .ok .ihdr ∧
  decode 0x0000000A = .ok .idat ∧ decode 0x0000000B = .ok .iend ∧ decode 0x0000000C = .ok .encpng ∧
  decode 0x00000000 = .error .opcodeUnassigned ∧ decode 0x0000000D = .error .opcodeUnassigned ∧
  decode 0x000000FF = .error .opcodeUnassigned ∧ decode 0x0000010C = .error .zeroFieldSet ∧
  decode 0x8000000C = .error .zeroFieldSet

/-- Every command's word is well formed and decodes to that command. -/
def Obligations.EncodedCommandDecodes : Prop :=
  ∀ i : Instr, wordWf (encode i) = true ∧ decode (encode i) = .ok i

/-- Decoding and encoding agree in both directions on all `2^32` words (R98): a word decodes to a command only if it is that
command's word, and is rejected exactly if bits 31:8 are not zero (the first test of R98) or bits 7:0 are not 1 to 12. -/
def Obligations.DecodeAcceptsExactlyTheEncodings : Prop :=
  ∀ w : Word,
    (∀ i, decode w = .ok i ↔ w = encode i) ∧
    (decode w = .error .zeroFieldSet ↔ w.toNat / 256 ≠ 0) ∧
    (decode w = .error .opcodeUnassigned ↔ w.toNat / 256 = 0 ∧ (w.toNat % 256 = 0 ∨ 13 ≤ w.toNat % 256)) ∧
    ((∃ i, decode w = .ok i) ↔ 1 ≤ w.toNat ∧ w.toNat ≤ 12)

/-! ## Steps, transactions and reset -/

/-- A `CMD` write runs the command its word decodes to, to its end, in one step; the step adds that the transaction is used up
and returns nothing. The word placed by `withFetchWord` is run the same way (R235, R91). -/
def Obligations.StepRunsTheIssuedCommand : Prop :=
  (∀ s w rest i, s.pending = .wrreg .cmd w :: rest → decode w = .ok i →
    step s = exec i { s with pending := rest, reply := .nothing }) ∧
  (∀ (s : State) w i, decode w = .ok i → step (s.withFetchWord 32 w.toNat) = exec i { s with reply := .nothing })

/-- A word that is no command is stored in `CMD`, raises `ILLEGAL` (code 5) and has no other effect (R256). -/
def Obligations.IllegalWordOnlyRaisesIllegal : Prop :=
  errBits .illegal = 5 ∧
  ∀ s w rest, s.pending = .wrreg .cmd w :: rest → (∀ i, w ≠ encode i) →
    step s = .next { s with cmd := w, err := .illegal, pending := rest, reply := .nothing }

/-- With no transaction pending the CORE does nothing (R281). -/
def Obligations.IdleWithoutTransactions : Prop := ∀ s, s.pending = [] → step s = .next s

/-- `RESET` (R234): all interface registers and flags 0, MEM and SINK untouched. Of the table it says nothing: it becomes
unspecified. -/
def Obligations.ResetTransactionClearsTheCore : Prop :=
  ∀ s rest, s.pending = .reset :: rest →
    ∃ t, step s = .next t ∧
      t.cmd = 0 ∧ t.tv = false ∧ t.err = .ok ∧ t.res = 0 ∧ t.pos = 0 ∧ t.width = 0 ∧ t.height = 0 ∧ t.border = 0 ∧
      t.rbase = 0 ∧ t.srca = 0 ∧ t.srcn = 0 ∧ t.val = 0 ∧ t.crc = 0 ∧ t.s1 = 0 ∧ t.s2 = 0 ∧ t.tblidx = 0 ∧
      t.mem = s.mem ∧ t.memSize = s.memSize ∧ t.sink = s.sink ∧
      t.pending = rest ∧ t.reply = .nothing ∧ t.sinkAnswers = s.sinkAnswers

/-- In the start state every interface register but `TBLDAT` reads 0 (R43). -/
def Obligations.RegistersReadZeroAfterReset : Prop :=
  ∀ r rest, r ≠ .tbldat → step { State.reset with pending := .rdreg r :: rest } =
    .next { State.reset with pending := rest, reply := .word 0 }

/-- The fields of `STATUS` (R23): `TV` in bit 0, the code of `ERR` in bits 11:8, every other bit 0. -/
def Obligations.StatusWordHasItsFields : Prop :=
  (∀ s, (statusWord s).toNat = (errBits s.err).toNat * 256 + (if s.tv then 1 else 0)) ∧
  (errBits .ok).toNat = 0 ∧ (errBits .io).toNat = 1 ∧ (errBits .size).toNat = 2 ∧ (errBits .dim).toNat = 3 ∧
  (errBits .addr).toNat = 4 ∧ (errBits .illegal).toNat = 5

/-- The register map (R20, R21): index `n` is at byte offset `4 * n`; no other index and no other offset exists. -/
def Obligations.RegisterMapIsExact : Prop :=
  (∀ n r, regAtIndex n = some r ↔ regIndex r = n) ∧
  (∀ off r, regAtOffset off = some r ↔ off = 4 * regIndex r) ∧
  (∀ n, 15 < n → regAtIndex n = none)

/-- `RDREG` (R231): what each register reads as, `TBLDAT` with `TV = 0` as a free value; no register, MEM byte or SINK byte
changes. -/
def Obligations.RegisterReadsReturnTheRegister : Prop :=
  ∀ s rest r, s.pending = .rdreg r :: rest →
    ((r = .tbldat → s.tv = true) →
      step s = .next { s with
        pending := rest
        reply := .word
          (match r with
           | .cmd => s.cmd
           | .status => statusWord s
           | .res => s.res
           | .pos => s.pos
           | .width => s.width
           | .height => s.height
           | .border => s.border
           | .rbase => s.rbase
           | .srca => s.srca
           | .srcn => s.srcn
           | .val => s.val
           | .crc => s.crc
           | .adler => BitVec.ofNat 32 (s.s2.toNat * 65536 + s.s1.toNat)
           | .tblidx => BitVec.ofNat 32 s.tblidx.toNat
           | .tbldat => tableAt s.table s.tblidx
           | .reserved15 => 0) }) ∧
    (r = .tbldat → s.tv = false →
      ∃ v, step s = .next { s with pending := rest, reply := .word v, draws := s.draws + 1 })

/-- `WRREG` to a register other than `CMD` (R232): the operand registers keep all 32 bits, `TBLIDX` the low 8, a read-only or
reserved register ignores the write; no error, no command. A write to `CMD` issues the word. -/
def Obligations.RegisterWritesStoreOrAreIgnored : Prop :=
  ∀ s rest r v, s.pending = .wrreg r v :: rest →
    step s =
      (match r with
       | .cmd => issue v { s with pending := rest, reply := .nothing }
       | .width => .next { s with pending := rest, reply := .nothing, width := v }
       | .height => .next { s with pending := rest, reply := .nothing, height := v }
       | .border => .next { s with pending := rest, reply := .nothing, border := v }
       | .rbase => .next { s with pending := rest, reply := .nothing, rbase := v }
       | .srca => .next { s with pending := rest, reply := .nothing, srca := v }
       | .srcn => .next { s with pending := rest, reply := .nothing, srcn := v }
       | .val => .next { s with pending := rest, reply := .nothing, val := v }
       | .tblidx => .next { s with pending := rest, reply := .nothing, tblidx := BitVec.ofNat 8 (v.toNat % 256) }
       | .status => .next { s with pending := rest, reply := .nothing }
       | .res => .next { s with pending := rest, reply := .nothing }
       | .pos => .next { s with pending := rest, reply := .nothing }
       | .crc => .next { s with pending := rest, reply := .nothing }
       | .adler => .next { s with pending := rest, reply := .nothing }
       | .tbldat => .next { s with pending := rest, reply := .nothing }
       | .reserved15 => .next { s with pending := rest, reply := .nothing })

/-- `WRMEM` (R233): that byte and no other changes, and no register. -/
def Obligations.MemoryWriteChangesOneByte : Prop :=
  ∀ s a b rest, Memory.wf s.mem → s.pending = .wrmem a b :: rest → a < s.memSize →
    ∃ m, step s = .next { s with mem := m, pending := rest, reply := .nothing } ∧ Memory.wf m ∧
      ∀ x, memByte m x = if x = a then b else memByte s.mem x

/-- `RDMEM` (R236): the byte is returned and no state is written. -/
def Obligations.MemoryReadReturnsTheByte : Prop :=
  ∀ s a rest, s.pending = .rdmem a :: rest → a < s.memSize →
    step s = .next { s with pending := rest, reply := .byte (memByte s.mem a) }

/-- A memory transaction at or above `MEM_SIZE` is refused (U5 of 93_implementation_defined.md). -/
def Obligations.MemoryTransactionOutsideIsRefused : Prop :=
  ∀ s a b rest, s.memSize ≤ a →
    (s.pending = .wrmem a b :: rest → step s = .refused .noSuchMemAddress) ∧
    (s.pending = .rdmem a :: rest → step s = .refused .noSuchMemAddress)

/-- The script's pseudo-instructions expand as R97 says. -/
def Obligations.PseudoInstructionsExpand : Prop :=
  (∀ a bytes k, (expandLine (.ldmem a bytes))[k]? = bytes[k]?.map fun b => Transaction.wrmem (a + k) b) ∧
  (∀ w h b base, expandLine (.setdim w h b base) =
    [.wrreg .width w, .wrreg .height h, .wrreg .border b, .wrreg .rbase base]) ∧
  (∀ a n, expandLine (.setspan a n) = [.wrreg .srca a, .wrreg .srcn n]) ∧
  (∀ w h b base, expandLine (.encode w h b base) =
    [.wrreg .width w, .wrreg .height h, .wrreg .border b, .wrreg .rbase base, .wrreg .cmd 0x0000000C])

/-! ## Checksum engine -/

/-- TBLINIT (R117). -/
def Obligations.TblinitBuildsTheTable : Prop :=
  ∀ s, exec .tblinit s =
    .next { s with cmd := 0x00000001, tv := true, table := if s.tv then s.table else builtTable, err := .ok }

/-- The built table holds `Tbl(n)` at every `n` (R112): 8 iterations of the shift of R111, with the values R111 lists, which the
spec marks as derived (all but `Tbl(1)`, its worked example). -/
def Obligations.BuiltTableHoldsTbl : Prop :=
  (∀ n : Byte, tableAt builtTable n =
    Nat.iterate (fun c : Word => if c.toNat % 2 = 1 then (c >>> 1) ^^^ 0xEDB88320#32 else c >>> 1) 8 (n.setWidth 32)) ∧
  tableAt builtTable 0 = 0x00000000 ∧ tableAt builtTable 1 = 0x77073096 ∧ tableAt builtTable 2 = 0xEE0E612C ∧
  tableAt builtTable 3 = 0x990951BA ∧ tableAt builtTable 4 = 0x076DC419 ∧ tableAt builtTable 8 = 0x0EDB8832 ∧
  tableAt builtTable 16 = 0x1DB71064 ∧ tableAt builtTable 32 = 0x3B6E20C8 ∧ tableAt builtTable 64 = 0x76DC4190 ∧
  tableAt builtTable 128 = 0xEDB88320 ∧ tableAt builtTable 254 = 0x5A05DF1B ∧ tableAt builtTable 255 = 0x2D02EF8D

/-- CRC32 (R118): the checksum of the span in `RES`, the accumulator in `CRC`, the table built; or `ADDR` and nothing else. -/
def Obligations.CrcCommandChecksumsTheSpan : Prop :=
  ∀ s, TableOk s →
    (SpanInside s → exec .crc32 s =
      .next { s with
        cmd := 0x00000002, tv := true, table := builtTable
        crc := crcAcc (spanOf s), res := ~~~ crcAcc (spanOf s), err := .ok }) ∧
    (¬ SpanInside s → exec .crc32 s = .next { s with cmd := 0x00000002, err := .addr })

/-- ADLER32 (R123): the checksum of the span in `RES`, the sums in `S1`, `S2`; or `ADDR` and nothing else. -/
def Obligations.AdlerCommandChecksumsTheSpan : Prop :=
  ∀ s,
    (SpanInside s → exec .adler32 s =
      .next { s with
        cmd := 0x00000003
        s1 := BitVec.ofNat 16 (adlerAcc (spanOf s)).1
        s2 := BitVec.ofNat 16 (adlerAcc (spanOf s)).2
        res := BitVec.ofNat 32 ((adlerAcc (spanOf s)).2 * 65536 + (adlerAcc (spanOf s)).1)
        err := .ok }) ∧
    (¬ SpanInside s → exec .adler32 s = .next { s with cmd := 0x00000003, err := .addr })

/-- The table-driven CRC equals the bit-serial CRC on every byte sequence (R116, which the spec marks as derived). -/
def Obligations.TableDrivenCrcEqualsBitSerial : Prop := ∀ bytes : List Byte, crcAcc bytes = crcSerial bytes

/-- The Adler-32 sums are reduced modulo 65521 after every byte, so they fit 16 bits, and the checksum packs them (R121). -/
def Obligations.AdlerSumsStayReduced : Prop :=
  ∀ bytes : List Byte,
    (adlerAcc bytes).1 < 65521 ∧ (adlerAcc bytes).2 < 65521 ∧
    (adler32 bytes).toNat = (adlerAcc bytes).2 * 65536 + (adlerAcc bytes).1 ∧
    (adler32 bytes).toNat % 65536 = (adlerAcc bytes).1 ∧ (adler32 bytes).toNat / 65536 = (adlerAcc bytes).2 ∧
    adler32 [] = 0x00000001

/-- The source's reference checksums (R113, R114, R120, R121; V1 to V5), and the sum that needs 17 bits (R122). -/
def Obligations.ReferenceChecksums : Prop :=
  crc32 [] = 0x00000000 ∧
  crc32 [0x31, 0x32, 0x33, 0x34, 0x35, 0x36, 0x37, 0x38, 0x39] = 0xCBF43926 ∧
  crc32 [0x49, 0x45, 0x4E, 0x44] = 0xAE426082 ∧
  adler32 [] = 0x00000001 ∧
  adler32 [0x57, 0x69, 0x6B, 0x69, 0x70, 0x65, 0x64, 0x69, 0x61] = 0x11E60398 ∧
  adler32 (List.replicate 257 0xFF) = 0x080F000F

/-! ## Endian utility -/

/-- BE32 (R141). -/
def Obligations.BeCommandSwapsVal : Prop :=
  ∀ s, exec .be32 s = .next { s with cmd := 0x00000004, res := bswap32 s.val, err := .ok }

/-- `bswap32` is the byte permutation of R140; it is its own inverse, which R140 marks as derived; and it lays a word out
big-endian on a little-endian host, the property of R142 (that the host is little-endian is log entry 14). -/
def Obligations.ByteSwapPermutesTheBytes : Prop :=
  ∀ v : Word,
    (bswap32 v).toNat =
      v.toNat % 256 * 2 ^ 24 + v.toNat / 2 ^ 8 % 256 * 2 ^ 16 + v.toNat / 2 ^ 16 % 256 * 2 ^ 8 + v.toNat / 2 ^ 24 ∧
    bswap32 (bswap32 v) = v ∧
    be32 v = [byteOf 0 (bswap32 v), byteOf 1 (bswap32 v), byteOf 2 (bswap32 v), byteOf 3 (bswap32 v)]

/-- PUTBE32 (R143): the four bytes of `VAL`, most significant first, through one write pass. -/
def Obligations.PutbeCommandWritesBigEndian : Prop :=
  ∀ s, exec .putbe32 s =
    .next (afterPass
      [s.val.extractLsb' 24 8, s.val.extractLsb' 16 8, s.val.extractLsb' 8 8, s.val.extractLsb' 0 8]
      { s with cmd := 0x00000005, res := 4 })

/-! ## The write pass -/

/-- `WritePass(s)` (R67): there is a number of accepted bytes such that every byte before it was answered `ok` and the byte at
it, if there is one, was refused; SINK has received exactly those bytes in order, `POS` is their number, a refusal raises `IO`,
and one answer is used up for each byte offered: the accepted ones and the refused one, none after it. Nothing else changes. How
used-up answers are counted is the model's form of the sink (log entry 4). -/
def Obligations.WritePassStopsAtTheFirstRefusal : Prop :=
  ∀ (bytes : List Byte) (s : State),
    ∃ a, a ≤ bytes.length ∧ (∀ k < a, answerAt s k = .ok) ∧ (a < bytes.length → answerAt s a = .fail) ∧
      writePass bytes s =
        { s with
          pos := BitVec.ofNat 32 a
          sink := s.sink ++ bytes.take a
          err := if a < bytes.length then .io else .ok
          sinkAnswers := s.sinkAnswers.drop (min bytes.length (a + 1))
          draws := s.draws + (min bytes.length (a + 1) - s.sinkAnswers.length) }

/-- What a host reads after an emitting command (R33, R253): on success `POS = RES`, the number of bytes SINK received; on `IO`,
`POS < RES`, and SINK received `POS` bytes. -/
def Obligations.PosCountsAcceptedBytes : Prop :=
  ∀ i s t, isEmitting i = true → exec i s = .next t →
    (t.err = .ok → t.pos = t.res ∧ t.sink.length = s.sink.length + t.res.toNat) ∧
    (t.err = .io → t.pos.toNat < t.res.toNat ∧ t.sink.length = s.sink.length + t.pos.toNat)

/-! ## Pixel assembler -/

/-- `Validate` (R150), for all five raster commands: the first of the three checks that fails decides the error, in exact
arithmetic, and nothing but `CMD` and `ERR` changes. -/
def Obligations.RasterChecksFailInOrder : Prop :=
  ∀ i s, isRaster i = true →
    (s.width.toNat = 0 ∨ s.height.toNat = 0 → exec i s = .next { s with cmd := encode i, err := .dim }) ∧
    (s.width.toNat ≠ 0 → s.height.toNat ≠ 0 →
      65535 < (s.height.toNat + 2 * s.border.toNat) * (s.width.toNat + 2 * s.border.toNat + 1) →
      exec i s = .next { s with cmd := encode i, err := .size }) ∧
    (s.width.toNat ≠ 0 → s.height.toNat ≠ 0 →
      (s.height.toNat + 2 * s.border.toNat) * (s.width.toNat + 2 * s.border.toNat + 1) ≤ 65535 →
      s.memSize < s.rbase.toNat + s.width.toNat * s.height.toNat →
      exec i s = .next { s with cmd := encode i, err := .dim })

/-- What holds after `Validate` passes (R153). -/
def Obligations.ValidDimensionsAreBounded : Prop :=
  ∀ s, Valid s →
    1 ≤ (dims s).w ∧ 1 ≤ (dims s).h ∧
    1 ≤ paddedWidth (dims s) ∧ paddedWidth (dims s) ≤ 65534 ∧
    1 ≤ paddedHeight (dims s) ∧ paddedHeight (dims s) ≤ 32767 ∧
    2 ≤ blockLen (dims s) ∧ blockLen (dims s) ≤ 65535 ∧
    (dims s).b ≤ 127 ∧ (dims s).w * (dims s).h ≤ 65534 ∧
    ∀ r c, r < (dims s).h → c < (dims s).w → s.rbase.toNat + r * (dims s).w + c < s.memSize

/-- PAD (R157): the scanline block through one write pass; or the error of `Validate` and nothing else. -/
def Obligations.PadCommandWritesTheBlock : Prop :=
  ∀ s,
    (Valid s → exec .pad s =
      .next (afterPass (scanlineBlock (dims s) (rasterOf s))
        { s with cmd := 0x00000006, res := BitVec.ofNat 32 (blockLen (dims s)) })) ∧
    (∀ e, validate s = some e → exec .pad s = .next { s with cmd := 0x00000006, err := e })

/-- Every byte of the scanline block (R154, R156): `LEN` bytes, and byte `i`, with `r = i div (PW + 1)` and
`j = i mod (PW + 1)`, is 0 if `j = 0`, else `Sample(r, j - 1)`, read from MEM or 255 in the border. -/
def Obligations.ScanlineBlockHoldsTheSamples : Prop :=
  ∀ s,
    (scanlineBlock (dims s) (rasterOf s)).length = blockLen (dims s) ∧
    ∀ i < blockLen (dims s),
      (scanlineBlock (dims s) (rasterOf s))[i]? =
        some (if i % (paddedWidth (dims s) + 1) = 0 then 0
          else sampleAt s (i / (paddedWidth (dims s) + 1)) (i % (paddedWidth (dims s) + 1) - 1))

/-! ## zlib wrapper -/

/-- ZWRAP (R177): the zlib stream through one write pass, with the sums of the scanline block in `S1`, `S2`; or the error of
`Validate` and nothing else. -/
def Obligations.ZwrapCommandWritesTheStream : Prop :=
  ∀ s,
    (Valid s → exec .zwrap s =
      .next (afterPass (zlibOf (dims s) (rasterOf s))
        { s with
          cmd := 0x00000007
          s1 := BitVec.ofNat 16 (adlerAcc (scanlineBlock (dims s) (rasterOf s))).1
          s2 := BitVec.ofNat 16 (adlerAcc (scanlineBlock (dims s) (rasterOf s))).2
          res := BitVec.ofNat 32 (blockLen (dims s) + 11) })) ∧
    (∀ e, validate s = some e → exec .zwrap s = .next { s with cmd := 0x00000007, err := e })

/-- The six parts of the zlib stream, byte by byte (R170, R173): header `78 9C 01`, `LEN` and its complement least significant
byte first, the scanline block, and its Adler-32 most significant byte first. -/
def Obligations.ZlibStreamHasItsSixParts : Prop :=
  ∀ s, Valid s →
    zlibOf (dims s) (rasterOf s) =
      [0x78, 0x9C, 0x01,
       BitVec.ofNat 8 (blockLen (dims s) % 256), BitVec.ofNat 8 (blockLen (dims s) / 256),
       BitVec.ofNat 8 ((65535 - blockLen (dims s)) % 256), BitVec.ofNat 8 ((65535 - blockLen (dims s)) / 256)] ++
      scanlineBlock (dims s) (rasterOf s) ++
      [BitVec.ofNat 8 ((adlerAcc (scanlineBlock (dims s) (rasterOf s))).2 / 256),
       BitVec.ofNat 8 ((adlerAcc (scanlineBlock (dims s) (rasterOf s))).2 % 256),
       BitVec.ofNat 8 ((adlerAcc (scanlineBlock (dims s) (rasterOf s))).1 / 256),
       BitVec.ofNat 8 ((adlerAcc (scanlineBlock (dims s) (rasterOf s))).1 % 256)] ∧
    (zlibOf (dims s) (rasterOf s)).length = blockLen (dims s) + 11

/-! ## Chunk framer -/

/-- SIG (R195). -/
def Obligations.SigCommandWritesTheSignature : Prop :=
  ∀ s, exec .sig s =
    .next (afterPass [0x89, 0x50, 0x4E, 0x47, 0x0D, 0x0A, 0x1A, 0x0A] { s with cmd := 0x00000008, res := 8 })

/-- IEND (R203). -/
def Obligations.IendCommandWritesTheEndChunk : Prop :=
  ∀ s, exec .iend s =
    .next (afterPass [0x00, 0x00, 0x00, 0x00, 0x49, 0x45, 0x4E, 0x44, 0xAE, 0x42, 0x60, 0x82]
      { s with cmd := 0x0000000B, res := 12 })

/-- The fixed IEND bytes are the chunk of type "IEND" with no data (R202). -/
def Obligations.IendBytesAreAChunk : Prop := iendBytes = chunk [0x49, 0x45, 0x4E, 0x44] []

/-- The envelope (R190): a length that counts the data only, the type, the data, the CRC of type and data, at their offsets. -/
def Obligations.ChunkEnvelopeLayout : Prop :=
  ∀ t d : List Byte, t.length = 4 → d.length < 2 ^ 32 →
    (chunk t d).length = d.length + 12 ∧
    (chunk t d).take 4 =
      [BitVec.ofNat 8 (d.length / 2 ^ 24), BitVec.ofNat 8 (d.length / 2 ^ 16), BitVec.ofNat 8 (d.length / 2 ^ 8),
       BitVec.ofNat 8 d.length] ∧
    ((chunk t d).drop 4).take 4 = t ∧
    ((chunk t d).drop 8).take d.length = d ∧
    (chunk t d).drop (d.length + 8) = be32 (crc32 (t ++ d))

/-- IHDR (R197): the IHDR chunk through one write pass, the accumulator in `CRC`, the table built; or the error of `Validate`
and nothing else. -/
def Obligations.IhdrCommandWritesTheChunk : Prop :=
  ∀ s, TableOk s →
    (Valid s → exec .ihdr s =
      .next (afterPass (ihdrBytes (dims s))
        { s with
          cmd := 0x00000009, tv := true, table := builtTable
          crc := crcAcc ([0x49, 0x48, 0x44, 0x52] ++ ihdrRecord (dims s)), res := 25 })) ∧
    (∀ e, validate s = some e → exec .ihdr s = .next { s with cmd := 0x00000009, err := e })

/-- The IHDR record and its chunk (R196, R198): the padded dimensions, big-endian, then `08 00 00 00 00`. -/
def Obligations.IhdrImageLayout : Prop :=
  ∀ s, Valid s →
    ihdrRecord (dims s) =
      [0, 0, BitVec.ofNat 8 (paddedWidth (dims s) / 256), BitVec.ofNat 8 (paddedWidth (dims s)),
       0, 0, BitVec.ofNat 8 (paddedHeight (dims s) / 256), BitVec.ofNat 8 (paddedHeight (dims s)), 8, 0, 0, 0, 0] ∧
    ihdrBytes (dims s) =
      [0x00, 0x00, 0x00, 0x0D, 0x49, 0x48, 0x44, 0x52] ++ ihdrRecord (dims s) ++
        be32 (crc32 ([0x49, 0x48, 0x44, 0x52] ++ ihdrRecord (dims s)))

/-- IDAT (R200): the IDAT chunk through one write pass, the sums of the scanline block in `S1`, `S2`, the accumulator in `CRC`,
the table built; or the error of `Validate` and nothing else. -/
def Obligations.IdatCommandWritesTheChunk : Prop :=
  ∀ s, TableOk s →
    (Valid s → exec .idat s =
      .next (afterPass (idatBytes (dims s) (rasterOf s))
        { s with
          cmd := 0x0000000A, tv := true, table := builtTable
          s1 := BitVec.ofNat 16 (adlerAcc (scanlineBlock (dims s) (rasterOf s))).1
          s2 := BitVec.ofNat 16 (adlerAcc (scanlineBlock (dims s) (rasterOf s))).2
          crc := crcAcc ([0x49, 0x44, 0x41, 0x54] ++ zlibOf (dims s) (rasterOf s))
          res := BitVec.ofNat 32 (blockLen (dims s) + 23) })) ∧
    (∀ e, validate s = some e → exec .idat s = .next { s with cmd := 0x0000000A, err := e })

/-- ENCPNG (R207): the whole file through one write pass, the sums and the accumulator as IDAT leaves them; or the error of
`Validate` and nothing else, not even the signature. -/
def Obligations.EncpngCommandWritesTheFile : Prop :=
  ∀ s, TableOk s →
    (Valid s → exec .encpng s =
      .next (afterPass (pngBytes (dims s) (rasterOf s))
        { s with
          cmd := 0x0000000C, tv := true, table := builtTable
          s1 := BitVec.ofNat 16 (adlerAcc (scanlineBlock (dims s) (rasterOf s))).1
          s2 := BitVec.ofNat 16 (adlerAcc (scanlineBlock (dims s) (rasterOf s))).2
          crc := crcAcc ([0x49, 0x44, 0x41, 0x54] ++ zlibOf (dims s) (rasterOf s))
          res := BitVec.ofNat 32 (blockLen (dims s) + 68) })) ∧
    (∀ e, validate s = some e → exec .encpng s = .next { s with cmd := 0x0000000C, err := e })

/-- The layout of the whole file and its length (R205), and the bounds of that length, which the spec derives (R206). -/
def Obligations.PngFileLayout : Prop :=
  ∀ s, Valid s →
    pngBytes (dims s) (rasterOf s) =
      [0x89, 0x50, 0x4E, 0x47, 0x0D, 0x0A, 0x1A, 0x0A] ++
      [0x00, 0x00, 0x00, 0x0D, 0x49, 0x48, 0x44, 0x52] ++
      be32 (BitVec.ofNat 32 (paddedWidth (dims s))) ++ be32 (BitVec.ofNat 32 (paddedHeight (dims s))) ++
      [0x08, 0x00, 0x00, 0x00, 0x00] ++ be32 (crc32 ([0x49, 0x48, 0x44, 0x52] ++ ihdrRecord (dims s))) ++
      be32 (BitVec.ofNat 32 (blockLen (dims s) + 11)) ++ [0x49, 0x44, 0x41, 0x54] ++
      [0x78, 0x9C, 0x01] ++ le16 (BitVec.ofNat 16 (blockLen (dims s))) ++
      le16 (~~~ BitVec.ofNat 16 (blockLen (dims s))) ++
      scanlineBlock (dims s) (rasterOf s) ++ be32 (adler32 (scanlineBlock (dims s) (rasterOf s))) ++
      be32 (crc32 ([0x49, 0x44, 0x41, 0x54] ++ zlibOf (dims s) (rasterOf s))) ++
      [0x00, 0x00, 0x00, 0x00, 0x49, 0x45, 0x4E, 0x44, 0xAE, 0x42, 0x60, 0x82] ∧
    (pngBytes (dims s) (rasterOf s)).length = blockLen (dims s) + 68 ∧
    70 ≤ blockLen (dims s) + 68 ∧ blockLen (dims s) + 68 ≤ 65603

/-- ENCPNG is the composition of SIG, IHDR, IDAT, IEND when every write is accepted: the same bytes, and the same state but for
`CMD`, `RES` and `POS` (R208). -/
def Obligations.EncpngEqualsItsParts : Prop :=
  ∀ s, TableOk s → Valid s → SinkAccepts s (blockLen (dims s) + 68) →
    ∃ a b c d t,
      exec .sig s = .next a ∧ exec .ihdr a = .next b ∧ exec .idat b = .next c ∧ exec .iend c = .next d ∧
      exec .encpng s = .next t ∧ t.err = .ok ∧
      t.sink = s.sink ++ pngBytes (dims s) (rasterOf s) ∧
      t.res = BitVec.ofNat 32 (blockLen (dims s) + 68) ∧ t.pos = t.res ∧
      d = { t with cmd := 0x0000000B, res := 12, pos := 12 }

/-! ## Whole-machine rules -/

/-- The start state meets the invariants (R41, R43). -/
def Obligations.StartStateMeetsTheInvariants : Prop := CoreInv State.reset

/-- Every transaction, and so every command, keeps the invariants (R41). -/
def Obligations.EveryStepKeepsTheInvariants : Prop := ∀ s t, CoreInv s → step s = .next t → CoreInv t

/-- From every state every command ends in a next state, with its own word in `CMD`: none is refused, and the read of MEM that
would be undefined is never issued (R235, R62). It rests on the model's choice of log entry 4, that the sink answers every write:
R235 says a command always ends "provided the sink answers every write", and U4 lets a model exclude a sink that does not. -/
def Obligations.EveryCommandCompletes : Prop := ∀ i s, ∃ t, exec i s = .next t ∧ t.cmd = encode i

/-- No step faults, and the only refusal is of a memory transaction outside MEM (R62, U5). -/
def Obligations.StepsStopOnlyOutsideMemory : Prop :=
  ∀ s, SafeStep s ∧
    ∀ r, step s = .refused r →
      ∃ a rest, s.memSize ≤ a ∧ (s.pending = .rdmem a :: rest ∨ ∃ b, s.pending = .wrmem a b :: rest)

/-- The frame every command has (R25 to R30, R32, R34, R60, R65): the operand registers, `TBLIDX`, MEM and the host's fields
are unchanged, and SINK only grows. -/
def Obligations.CommandsLeaveOperandsAndMemoryAlone : Prop :=
  ∀ i s t, exec i s = .next t →
    t.width = s.width ∧ t.height = s.height ∧ t.border = s.border ∧ t.rbase = s.rbase ∧ t.srca = s.srca ∧
    t.srcn = s.srcn ∧ t.val = s.val ∧ t.tblidx = s.tblidx ∧ t.mem = s.mem ∧ t.memSize = s.memSize ∧
    t.pending = s.pending ∧ t.reply = s.reply ∧ ∃ bytes, t.sink = s.sink ++ bytes

/-- An error other than `IO` is precise (R259): the state is the state before plus `CMD` and `ERR`. -/
def Obligations.ErrorsBeforeTheWritePassChangeNothing : Prop :=
  ∀ i s t, exec i s = .next t → t.err ≠ .ok → t.err ≠ .io → t = { s with cmd := encode i, err := t.err }

/-- Which errors each command can raise (R42, R250). -/
def Obligations.ErrorsEachCommandCanRaise : Prop :=
  ∀ i s t, exec i s = .next t →
    (i = .tblinit ∨ i = .be32 → t.err = .ok) ∧
    (i = .crc32 ∨ i = .adler32 → t.err = .ok ∨ t.err = .addr) ∧
    (i = .putbe32 ∨ i = .sig ∨ i = .iend → t.err = .ok ∨ t.err = .io) ∧
    (isRaster i = true → t.err = .ok ∨ t.err = .io ∨ t.err = .size ∨ t.err = .dim)

/-- Who touches the CRC table (R115): the five commands that compute with it leave it built unless their checks failed, and no
other command changes it or its flag. -/
def Obligations.OnlyCrcCommandsBuildTheTable : Prop :=
  ∀ i s t, TableOk s → exec i s = .next t →
    (usesTable i = true → t.err = .ok ∨ t.err = .io → t.tv = true ∧ t.table = builtTable) ∧
    (usesTable i = false ∨ (t.err ≠ .ok ∧ t.err ≠ .io) → t.tv = s.tv ∧ t.table = s.table)

/-- Only `RESET` clears `TV` (R39, R283). -/
def Obligations.OnlyResetClearsTheTableFlag : Prop :=
  ∀ s t, step s = .next t → s.tv = true → t.tv = true ∨ ∃ rest, s.pending = .reset :: rest

/-- No value a command produces depends on whether the table was built when it started (R116): building it first changes
nothing afterwards but the table and its flag. -/
def Obligations.TableFlagNeverChangesAResult : Prop :=
  ∀ i s t, TableOk s → exec i s = .next t → exec i (buildTable s) = .next (buildTable t)

/-- No command depends on what earlier commands left in `CMD`, `ERR`, `RES`, `POS`, `CRC`, `S1`, `S2` (R35, R36, R45; C6): with
other values there it has the same outcome and effect, and each of those registers ends the same or was left alone both
times. -/
def Obligations.EarlierResultsNeverMatter : Prop :=
  ∀ i s t c e r p k x y, exec i s = .next t →
    ∃ u, exec i { s with cmd := c, err := e, res := r, pos := p, crc := k, s1 := x, s2 := y } = .next u ∧
      u.cmd = t.cmd ∧ u.err = t.err ∧ u.tv = t.tv ∧ u.table = t.table ∧ u.sink = t.sink ∧
      u.sinkAnswers = t.sinkAnswers ∧ u.draws = t.draws ∧
      (u.res = t.res ∨ (u.res = r ∧ t.res = s.res)) ∧ (u.pos = t.pos ∨ (u.pos = p ∧ t.pos = s.pos)) ∧
      (u.crc = t.crc ∨ (u.crc = k ∧ t.crc = s.crc)) ∧ (u.s1 = t.s1 ∨ (u.s1 = x ∧ t.s1 = s.s1)) ∧
      (u.s2 = t.s2 ∨ (u.s2 = y ∧ t.s2 = s.s2))

/-- What of MEM a command can see (R61, R155 (e), R241): the raster, for the raster commands that read it; the span, for the
checksum commands; nothing, for the rest. Any other bytes may differ. -/
def Obligations.OnlyTheNamedBytesOfMemMatter : Prop :=
  ∀ i s t m, exec i s = .next t →
    (i = .pad ∨ i = .zwrap ∨ i = .idat ∨ i = .encpng →
      ∀ k < s.width.toNat * s.height.toNat, memByte m (s.rbase.toNat + k) = memByte s.mem (s.rbase.toNat + k)) →
    (i = .crc32 ∨ i = .adler32 →
      ∀ k < s.srcn.toNat, memByte m (s.srca.toNat + k) = memByte s.mem (s.srca.toNat + k)) →
    exec i { s with mem := m } = .next { t with mem := m }
end

