-- ==== Sys2Proof/Laws/Memory.lean ====
section
/-! SUPPORT. The laws of MEM: a write is read back and leaves every other address alone, every write keeps the canonical form
and the bounds, and what a defined `MemRead` gives. -/

namespace Sys2Proof.Machine

theorem memByte_of_forall_ne {m : Memory} {a : Nat} (h : ∀ c ∈ m, c.1 ≠ a) : memByte m a = memUnlisted := by
  induction m with
  | nil => rfl
  | cons c m ih =>
    have hc : c.1 ≠ a := h c (by simp)
    simpa [memByte, hc] using ih fun d hd => h d (by simp [hd])

theorem memByte_memEntry (a a' : Nat) (b : Byte) (m : Memory) :
    memByte (memEntry a b ++ m) a' =
      if a' = a then (if b = memUnlisted then memByte m a else b) else memByte m a' := by
  unfold memEntry
  by_cases hb : b = memUnlisted
  · by_cases ha : a' = a <;> simp [hb, ha]
  · by_cases ha : a' = a
    · simp [hb, ha, memByte]
    · simp [hb, ha, memByte, Ne.symm ha]

/-- The one law of a write: the address written reads as the byte, every other address as before. -/
theorem memByte_memSet {m : Memory} (h : Memory.wf m) (a a' : Nat) (b : Byte) :
    memByte (memSet m a b) a' = if a' = a then b else memByte m a' := by
  induction m with
  | nil =>
    have := memByte_memEntry a a' b []
    simp only [List.append_nil] at this
    rw [memSet, this]
    by_cases hb : b = memUnlisted <;> simp [hb, memByte]
  | cons c m ih =>
    have hwf : Memory.wf m := ⟨(List.pairwise_cons.1 h.1).2, fun d hd => h.2 d (by simp [hd])⟩
    have hlt : ∀ d ∈ m, c.1 < d.1 := (List.pairwise_cons.1 h.1).1
    unfold memSet
    split
    · next hac =>
      rw [memByte_memEntry]
      have habs : memByte (c :: m) a = memUnlisted :=
        memByte_of_forall_ne fun d hd => by
          rcases List.mem_cons.1 hd with rfl | hd
          · omega
          · have := hlt d hd; omega
      by_cases hb : b = memUnlisted <;> simp [hb, habs]
    · split
      · next hac =>
        subst hac
        rw [memByte_memEntry]
        have habs : memByte m c.1 = memUnlisted :=
          memByte_of_forall_ne fun d hd => by have := hlt d hd; omega
        by_cases ha : a' = c.1
        · by_cases hb : b = memUnlisted <;> simp [hb, ha, habs]
        · simp [ha, memByte, Ne.symm ha]
      · next h1 h2 =>
        by_cases hc : c.1 = a'
        · subst hc
          simp [memByte, Ne.symm h2]
        · simp [memByte, hc, ih hwf]

theorem mem_memEntry {a : Nat} {b : Byte} {c : Host.Cell} (h : c ∈ memEntry a b) : c = (a, b) ∧ b ≠ memUnlisted := by
  unfold memEntry at h
  split at h <;> simp_all

/-- Every cell of a written memory is the cell written or a cell that was there. -/
theorem mem_memSet {m : Memory} {a : Nat} {b : Byte} {c : Host.Cell} (h : c ∈ memSet m a b) :
    (c = (a, b) ∧ b ≠ memUnlisted) ∨ c ∈ m := by
  induction m with
  | nil => exact .inl (mem_memEntry h)
  | cons d m ih =>
    unfold memSet at h
    split at h
    · rcases List.mem_append.1 h with h | h
      · exact .inl (mem_memEntry h)
      · exact .inr h
    · split at h
      · rcases List.mem_append.1 h with h | h
        · exact .inl (mem_memEntry h)
        · exact .inr (by simp [h])
      · rcases List.mem_cons.1 h with h | h
        · exact .inr (by simp [h])
        · exact (ih h).imp id fun h => by simp [h]

/-- A write keeps the canonical form. -/
theorem memSet_wf {m : Memory} (h : Memory.wf m) (a : Nat) (b : Byte) : Memory.wf (memSet m a b) := by
  refine ⟨?_, fun c hc => ?_⟩
  · induction m with
    | nil => unfold memSet memEntry; split <;> simp
    | cons c m ih =>
      have hwf : Memory.wf m := ⟨(List.pairwise_cons.1 h.1).2, fun d hd => h.2 d (by simp [hd])⟩
      have hlt : ∀ d ∈ m, c.1 < d.1 := (List.pairwise_cons.1 h.1).1
      unfold memSet
      split
      · next hac =>
        unfold memEntry
        split
        · simpa using h.1
        · refine List.pairwise_cons.2 ⟨fun d hd => ?_, h.1⟩
          rcases List.mem_cons.1 hd with rfl | hd
          · exact hac
          · exact lt_trans hac (hlt d hd)
      · split
        · next hac =>
          subst hac
          unfold memEntry
          split
          · simpa using hwf.1
          · exact List.pairwise_cons.2 ⟨hlt, hwf.1⟩
        · next h1 h2 =>
          refine List.pairwise_cons.2 ⟨fun d hd => ?_, ih hwf⟩
          rcases mem_memSet hd with ⟨rfl, -⟩ | hd
          · show c.1 < a
            omega
          · exact hlt d hd
  · rcases mem_memSet hc with ⟨rfl, hb⟩ | hc
    · exact hb
    · exact h.2 c hc

/-- What `MemRead` answers: the bytes of the range when it lies in MEM, nothing otherwise (R62). -/
theorem memRead_eq (s : State) (a n : Nat) :
    memRead s a n = if a + n ≤ s.memSize then some (memSpan s a n) else none := rfl

@[simp] theorem memSpan_length (s : State) (a n : Nat) : (memSpan s a n).length = n := by simp [memSpan]

end Sys2Proof.Machine
end

