-- ==== Sys2Proof/Laws/State.lean ====
section
/-! SUPPORT. One lemma per field per named update of State: what the update writes, and that it leaves the field alone. -/

namespace Sys2Proof.Machine

/-! ## startCommand -/

@[simp] theorem startCommand_cmd (i : Instr) (s : State) : (startCommand i s).cmd = encode i := rfl
@[simp] theorem startCommand_tv (i : Instr) (s : State) : (startCommand i s).tv = s.tv := rfl
@[simp] theorem startCommand_err (i : Instr) (s : State) : (startCommand i s).err = s.err := rfl
@[simp] theorem startCommand_res (i : Instr) (s : State) : (startCommand i s).res = s.res := rfl
@[simp] theorem startCommand_pos (i : Instr) (s : State) : (startCommand i s).pos = s.pos := rfl
@[simp] theorem startCommand_width (i : Instr) (s : State) : (startCommand i s).width = s.width := rfl
@[simp] theorem startCommand_height (i : Instr) (s : State) : (startCommand i s).height = s.height := rfl
@[simp] theorem startCommand_border (i : Instr) (s : State) : (startCommand i s).border = s.border := rfl
@[simp] theorem startCommand_rbase (i : Instr) (s : State) : (startCommand i s).rbase = s.rbase := rfl
@[simp] theorem startCommand_srca (i : Instr) (s : State) : (startCommand i s).srca = s.srca := rfl
@[simp] theorem startCommand_srcn (i : Instr) (s : State) : (startCommand i s).srcn = s.srcn := rfl
@[simp] theorem startCommand_val (i : Instr) (s : State) : (startCommand i s).val = s.val := rfl
@[simp] theorem startCommand_crc (i : Instr) (s : State) : (startCommand i s).crc = s.crc := rfl
@[simp] theorem startCommand_s1 (i : Instr) (s : State) : (startCommand i s).s1 = s.s1 := rfl
@[simp] theorem startCommand_s2 (i : Instr) (s : State) : (startCommand i s).s2 = s.s2 := rfl
@[simp] theorem startCommand_tblidx (i : Instr) (s : State) : (startCommand i s).tblidx = s.tblidx := rfl
@[simp] theorem startCommand_table (i : Instr) (s : State) : (startCommand i s).table = s.table := rfl
@[simp] theorem startCommand_memSize (i : Instr) (s : State) : (startCommand i s).memSize = s.memSize := rfl
@[simp] theorem startCommand_mem (i : Instr) (s : State) : (startCommand i s).mem = s.mem := rfl
@[simp] theorem startCommand_sink (i : Instr) (s : State) : (startCommand i s).sink = s.sink := rfl
@[simp] theorem startCommand_pending (i : Instr) (s : State) : (startCommand i s).pending = s.pending := rfl
@[simp] theorem startCommand_reply (i : Instr) (s : State) : (startCommand i s).reply = s.reply := rfl
@[simp] theorem startCommand_sinkAnswers (i : Instr) (s : State) : (startCommand i s).sinkAnswers = s.sinkAnswers := rfl
@[simp] theorem startCommand_draws (i : Instr) (s : State) : (startCommand i s).draws = s.draws := rfl

/-! ## raiseErr -/

@[simp] theorem raiseErr_cmd (e : ErrCode) (s : State) : (raiseErr e s).cmd = s.cmd := rfl
@[simp] theorem raiseErr_tv (e : ErrCode) (s : State) : (raiseErr e s).tv = s.tv := rfl
@[simp] theorem raiseErr_err (e : ErrCode) (s : State) : (raiseErr e s).err = e := rfl
@[simp] theorem raiseErr_res (e : ErrCode) (s : State) : (raiseErr e s).res = s.res := rfl
@[simp] theorem raiseErr_pos (e : ErrCode) (s : State) : (raiseErr e s).pos = s.pos := rfl
@[simp] theorem raiseErr_width (e : ErrCode) (s : State) : (raiseErr e s).width = s.width := rfl
@[simp] theorem raiseErr_height (e : ErrCode) (s : State) : (raiseErr e s).height = s.height := rfl
@[simp] theorem raiseErr_border (e : ErrCode) (s : State) : (raiseErr e s).border = s.border := rfl
@[simp] theorem raiseErr_rbase (e : ErrCode) (s : State) : (raiseErr e s).rbase = s.rbase := rfl
@[simp] theorem raiseErr_srca (e : ErrCode) (s : State) : (raiseErr e s).srca = s.srca := rfl
@[simp] theorem raiseErr_srcn (e : ErrCode) (s : State) : (raiseErr e s).srcn = s.srcn := rfl
@[simp] theorem raiseErr_val (e : ErrCode) (s : State) : (raiseErr e s).val = s.val := rfl
@[simp] theorem raiseErr_crc (e : ErrCode) (s : State) : (raiseErr e s).crc = s.crc := rfl
@[simp] theorem raiseErr_s1 (e : ErrCode) (s : State) : (raiseErr e s).s1 = s.s1 := rfl
@[simp] theorem raiseErr_s2 (e : ErrCode) (s : State) : (raiseErr e s).s2 = s.s2 := rfl
@[simp] theorem raiseErr_tblidx (e : ErrCode) (s : State) : (raiseErr e s).tblidx = s.tblidx := rfl
@[simp] theorem raiseErr_table (e : ErrCode) (s : State) : (raiseErr e s).table = s.table := rfl
@[simp] theorem raiseErr_memSize (e : ErrCode) (s : State) : (raiseErr e s).memSize = s.memSize := rfl
@[simp] theorem raiseErr_mem (e : ErrCode) (s : State) : (raiseErr e s).mem = s.mem := rfl
@[simp] theorem raiseErr_sink (e : ErrCode) (s : State) : (raiseErr e s).sink = s.sink := rfl
@[simp] theorem raiseErr_pending (e : ErrCode) (s : State) : (raiseErr e s).pending = s.pending := rfl
@[simp] theorem raiseErr_reply (e : ErrCode) (s : State) : (raiseErr e s).reply = s.reply := rfl
@[simp] theorem raiseErr_sinkAnswers (e : ErrCode) (s : State) : (raiseErr e s).sinkAnswers = s.sinkAnswers := rfl
@[simp] theorem raiseErr_draws (e : ErrCode) (s : State) : (raiseErr e s).draws = s.draws := rfl

/-! ## succeed -/

@[simp] theorem succeed_cmd (s : State) : (succeed s).cmd = s.cmd := rfl
@[simp] theorem succeed_tv (s : State) : (succeed s).tv = s.tv := rfl
@[simp] theorem succeed_err (s : State) : (succeed s).err = .ok := rfl
@[simp] theorem succeed_res (s : State) : (succeed s).res = s.res := rfl
@[simp] theorem succeed_pos (s : State) : (succeed s).pos = s.pos := rfl
@[simp] theorem succeed_width (s : State) : (succeed s).width = s.width := rfl
@[simp] theorem succeed_height (s : State) : (succeed s).height = s.height := rfl
@[simp] theorem succeed_border (s : State) : (succeed s).border = s.border := rfl
@[simp] theorem succeed_rbase (s : State) : (succeed s).rbase = s.rbase := rfl
@[simp] theorem succeed_srca (s : State) : (succeed s).srca = s.srca := rfl
@[simp] theorem succeed_srcn (s : State) : (succeed s).srcn = s.srcn := rfl
@[simp] theorem succeed_val (s : State) : (succeed s).val = s.val := rfl
@[simp] theorem succeed_crc (s : State) : (succeed s).crc = s.crc := rfl
@[simp] theorem succeed_s1 (s : State) : (succeed s).s1 = s.s1 := rfl
@[simp] theorem succeed_s2 (s : State) : (succeed s).s2 = s.s2 := rfl
@[simp] theorem succeed_tblidx (s : State) : (succeed s).tblidx = s.tblidx := rfl
@[simp] theorem succeed_table (s : State) : (succeed s).table = s.table := rfl
@[simp] theorem succeed_memSize (s : State) : (succeed s).memSize = s.memSize := rfl
@[simp] theorem succeed_mem (s : State) : (succeed s).mem = s.mem := rfl
@[simp] theorem succeed_sink (s : State) : (succeed s).sink = s.sink := rfl
@[simp] theorem succeed_pending (s : State) : (succeed s).pending = s.pending := rfl
@[simp] theorem succeed_reply (s : State) : (succeed s).reply = s.reply := rfl
@[simp] theorem succeed_sinkAnswers (s : State) : (succeed s).sinkAnswers = s.sinkAnswers := rfl
@[simp] theorem succeed_draws (s : State) : (succeed s).draws = s.draws := rfl

/-! ## setRes -/

@[simp] theorem setRes_cmd (v : Word) (s : State) : (setRes v s).cmd = s.cmd := rfl
@[simp] theorem setRes_tv (v : Word) (s : State) : (setRes v s).tv = s.tv := rfl
@[simp] theorem setRes_err (v : Word) (s : State) : (setRes v s).err = s.err := rfl
@[simp] theorem setRes_res (v : Word) (s : State) : (setRes v s).res = v := rfl
@[simp] theorem setRes_pos (v : Word) (s : State) : (setRes v s).pos = s.pos := rfl
@[simp] theorem setRes_width (v : Word) (s : State) : (setRes v s).width = s.width := rfl
@[simp] theorem setRes_height (v : Word) (s : State) : (setRes v s).height = s.height := rfl
@[simp] theorem setRes_border (v : Word) (s : State) : (setRes v s).border = s.border := rfl
@[simp] theorem setRes_rbase (v : Word) (s : State) : (setRes v s).rbase = s.rbase := rfl
@[simp] theorem setRes_srca (v : Word) (s : State) : (setRes v s).srca = s.srca := rfl
@[simp] theorem setRes_srcn (v : Word) (s : State) : (setRes v s).srcn = s.srcn := rfl
@[simp] theorem setRes_val (v : Word) (s : State) : (setRes v s).val = s.val := rfl
@[simp] theorem setRes_crc (v : Word) (s : State) : (setRes v s).crc = s.crc := rfl
@[simp] theorem setRes_s1 (v : Word) (s : State) : (setRes v s).s1 = s.s1 := rfl
@[simp] theorem setRes_s2 (v : Word) (s : State) : (setRes v s).s2 = s.s2 := rfl
@[simp] theorem setRes_tblidx (v : Word) (s : State) : (setRes v s).tblidx = s.tblidx := rfl
@[simp] theorem setRes_table (v : Word) (s : State) : (setRes v s).table = s.table := rfl
@[simp] theorem setRes_memSize (v : Word) (s : State) : (setRes v s).memSize = s.memSize := rfl
@[simp] theorem setRes_mem (v : Word) (s : State) : (setRes v s).mem = s.mem := rfl
@[simp] theorem setRes_sink (v : Word) (s : State) : (setRes v s).sink = s.sink := rfl
@[simp] theorem setRes_pending (v : Word) (s : State) : (setRes v s).pending = s.pending := rfl
@[simp] theorem setRes_reply (v : Word) (s : State) : (setRes v s).reply = s.reply := rfl
@[simp] theorem setRes_sinkAnswers (v : Word) (s : State) : (setRes v s).sinkAnswers = s.sinkAnswers := rfl
@[simp] theorem setRes_draws (v : Word) (s : State) : (setRes v s).draws = s.draws := rfl

/-! ## setCrc -/

@[simp] theorem setCrc_cmd (v : Word) (s : State) : (setCrc v s).cmd = s.cmd := rfl
@[simp] theorem setCrc_tv (v : Word) (s : State) : (setCrc v s).tv = s.tv := rfl
@[simp] theorem setCrc_err (v : Word) (s : State) : (setCrc v s).err = s.err := rfl
@[simp] theorem setCrc_res (v : Word) (s : State) : (setCrc v s).res = s.res := rfl
@[simp] theorem setCrc_pos (v : Word) (s : State) : (setCrc v s).pos = s.pos := rfl
@[simp] theorem setCrc_width (v : Word) (s : State) : (setCrc v s).width = s.width := rfl
@[simp] theorem setCrc_height (v : Word) (s : State) : (setCrc v s).height = s.height := rfl
@[simp] theorem setCrc_border (v : Word) (s : State) : (setCrc v s).border = s.border := rfl
@[simp] theorem setCrc_rbase (v : Word) (s : State) : (setCrc v s).rbase = s.rbase := rfl
@[simp] theorem setCrc_srca (v : Word) (s : State) : (setCrc v s).srca = s.srca := rfl
@[simp] theorem setCrc_srcn (v : Word) (s : State) : (setCrc v s).srcn = s.srcn := rfl
@[simp] theorem setCrc_val (v : Word) (s : State) : (setCrc v s).val = s.val := rfl
@[simp] theorem setCrc_crc (v : Word) (s : State) : (setCrc v s).crc = v := rfl
@[simp] theorem setCrc_s1 (v : Word) (s : State) : (setCrc v s).s1 = s.s1 := rfl
@[simp] theorem setCrc_s2 (v : Word) (s : State) : (setCrc v s).s2 = s.s2 := rfl
@[simp] theorem setCrc_tblidx (v : Word) (s : State) : (setCrc v s).tblidx = s.tblidx := rfl
@[simp] theorem setCrc_table (v : Word) (s : State) : (setCrc v s).table = s.table := rfl
@[simp] theorem setCrc_memSize (v : Word) (s : State) : (setCrc v s).memSize = s.memSize := rfl
@[simp] theorem setCrc_mem (v : Word) (s : State) : (setCrc v s).mem = s.mem := rfl
@[simp] theorem setCrc_sink (v : Word) (s : State) : (setCrc v s).sink = s.sink := rfl
@[simp] theorem setCrc_pending (v : Word) (s : State) : (setCrc v s).pending = s.pending := rfl
@[simp] theorem setCrc_reply (v : Word) (s : State) : (setCrc v s).reply = s.reply := rfl
@[simp] theorem setCrc_sinkAnswers (v : Word) (s : State) : (setCrc v s).sinkAnswers = s.sinkAnswers := rfl
@[simp] theorem setCrc_draws (v : Word) (s : State) : (setCrc v s).draws = s.draws := rfl

/-! ## setAdler -/

@[simp] theorem setAdler_cmd (p : Nat × Nat) (s : State) : (setAdler p s).cmd = s.cmd := rfl
@[simp] theorem setAdler_tv (p : Nat × Nat) (s : State) : (setAdler p s).tv = s.tv := rfl
@[simp] theorem setAdler_err (p : Nat × Nat) (s : State) : (setAdler p s).err = s.err := rfl
@[simp] theorem setAdler_res (p : Nat × Nat) (s : State) : (setAdler p s).res = s.res := rfl
@[simp] theorem setAdler_pos (p : Nat × Nat) (s : State) : (setAdler p s).pos = s.pos := rfl
@[simp] theorem setAdler_width (p : Nat × Nat) (s : State) : (setAdler p s).width = s.width := rfl
@[simp] theorem setAdler_height (p : Nat × Nat) (s : State) : (setAdler p s).height = s.height := rfl
@[simp] theorem setAdler_border (p : Nat × Nat) (s : State) : (setAdler p s).border = s.border := rfl
@[simp] theorem setAdler_rbase (p : Nat × Nat) (s : State) : (setAdler p s).rbase = s.rbase := rfl
@[simp] theorem setAdler_srca (p : Nat × Nat) (s : State) : (setAdler p s).srca = s.srca := rfl
@[simp] theorem setAdler_srcn (p : Nat × Nat) (s : State) : (setAdler p s).srcn = s.srcn := rfl
@[simp] theorem setAdler_val (p : Nat × Nat) (s : State) : (setAdler p s).val = s.val := rfl
@[simp] theorem setAdler_crc (p : Nat × Nat) (s : State) : (setAdler p s).crc = s.crc := rfl
@[simp] theorem setAdler_s1 (p : Nat × Nat) (s : State) : (setAdler p s).s1 = BitVec.ofNat 16 p.1 := rfl
@[simp] theorem setAdler_s2 (p : Nat × Nat) (s : State) : (setAdler p s).s2 = BitVec.ofNat 16 p.2 := rfl
@[simp] theorem setAdler_tblidx (p : Nat × Nat) (s : State) : (setAdler p s).tblidx = s.tblidx := rfl
@[simp] theorem setAdler_table (p : Nat × Nat) (s : State) : (setAdler p s).table = s.table := rfl
@[simp] theorem setAdler_memSize (p : Nat × Nat) (s : State) : (setAdler p s).memSize = s.memSize := rfl
@[simp] theorem setAdler_mem (p : Nat × Nat) (s : State) : (setAdler p s).mem = s.mem := rfl
@[simp] theorem setAdler_sink (p : Nat × Nat) (s : State) : (setAdler p s).sink = s.sink := rfl
@[simp] theorem setAdler_pending (p : Nat × Nat) (s : State) : (setAdler p s).pending = s.pending := rfl
@[simp] theorem setAdler_reply (p : Nat × Nat) (s : State) : (setAdler p s).reply = s.reply := rfl
@[simp] theorem setAdler_sinkAnswers (p : Nat × Nat) (s : State) : (setAdler p s).sinkAnswers = s.sinkAnswers := rfl
@[simp] theorem setAdler_draws (p : Nat × Nat) (s : State) : (setAdler p s).draws = s.draws := rfl

/-! ## buildTable -/

@[simp] theorem buildTable_cmd (s : State) : (buildTable s).cmd = s.cmd := rfl
@[simp] theorem buildTable_tv (s : State) : (buildTable s).tv = true := rfl
@[simp] theorem buildTable_err (s : State) : (buildTable s).err = s.err := rfl
@[simp] theorem buildTable_res (s : State) : (buildTable s).res = s.res := rfl
@[simp] theorem buildTable_pos (s : State) : (buildTable s).pos = s.pos := rfl
@[simp] theorem buildTable_width (s : State) : (buildTable s).width = s.width := rfl
@[simp] theorem buildTable_height (s : State) : (buildTable s).height = s.height := rfl
@[simp] theorem buildTable_border (s : State) : (buildTable s).border = s.border := rfl
@[simp] theorem buildTable_rbase (s : State) : (buildTable s).rbase = s.rbase := rfl
@[simp] theorem buildTable_srca (s : State) : (buildTable s).srca = s.srca := rfl
@[simp] theorem buildTable_srcn (s : State) : (buildTable s).srcn = s.srcn := rfl
@[simp] theorem buildTable_val (s : State) : (buildTable s).val = s.val := rfl
@[simp] theorem buildTable_crc (s : State) : (buildTable s).crc = s.crc := rfl
@[simp] theorem buildTable_s1 (s : State) : (buildTable s).s1 = s.s1 := rfl
@[simp] theorem buildTable_s2 (s : State) : (buildTable s).s2 = s.s2 := rfl
@[simp] theorem buildTable_tblidx (s : State) : (buildTable s).tblidx = s.tblidx := rfl
@[simp] theorem buildTable_table (s : State) : (buildTable s).table = builtTable := rfl
@[simp] theorem buildTable_memSize (s : State) : (buildTable s).memSize = s.memSize := rfl
@[simp] theorem buildTable_mem (s : State) : (buildTable s).mem = s.mem := rfl
@[simp] theorem buildTable_sink (s : State) : (buildTable s).sink = s.sink := rfl
@[simp] theorem buildTable_pending (s : State) : (buildTable s).pending = s.pending := rfl
@[simp] theorem buildTable_reply (s : State) : (buildTable s).reply = s.reply := rfl
@[simp] theorem buildTable_sinkAnswers (s : State) : (buildTable s).sinkAnswers = s.sinkAnswers := rfl
@[simp] theorem buildTable_draws (s : State) : (buildTable s).draws = s.draws := rfl

/-! ## setReply -/

@[simp] theorem setReply_cmd (r : Reply) (s : State) : (setReply r s).cmd = s.cmd := rfl
@[simp] theorem setReply_tv (r : Reply) (s : State) : (setReply r s).tv = s.tv := rfl
@[simp] theorem setReply_err (r : Reply) (s : State) : (setReply r s).err = s.err := rfl
@[simp] theorem setReply_res (r : Reply) (s : State) : (setReply r s).res = s.res := rfl
@[simp] theorem setReply_pos (r : Reply) (s : State) : (setReply r s).pos = s.pos := rfl
@[simp] theorem setReply_width (r : Reply) (s : State) : (setReply r s).width = s.width := rfl
@[simp] theorem setReply_height (r : Reply) (s : State) : (setReply r s).height = s.height := rfl
@[simp] theorem setReply_border (r : Reply) (s : State) : (setReply r s).border = s.border := rfl
@[simp] theorem setReply_rbase (r : Reply) (s : State) : (setReply r s).rbase = s.rbase := rfl
@[simp] theorem setReply_srca (r : Reply) (s : State) : (setReply r s).srca = s.srca := rfl
@[simp] theorem setReply_srcn (r : Reply) (s : State) : (setReply r s).srcn = s.srcn := rfl
@[simp] theorem setReply_val (r : Reply) (s : State) : (setReply r s).val = s.val := rfl
@[simp] theorem setReply_crc (r : Reply) (s : State) : (setReply r s).crc = s.crc := rfl
@[simp] theorem setReply_s1 (r : Reply) (s : State) : (setReply r s).s1 = s.s1 := rfl
@[simp] theorem setReply_s2 (r : Reply) (s : State) : (setReply r s).s2 = s.s2 := rfl
@[simp] theorem setReply_tblidx (r : Reply) (s : State) : (setReply r s).tblidx = s.tblidx := rfl
@[simp] theorem setReply_table (r : Reply) (s : State) : (setReply r s).table = s.table := rfl
@[simp] theorem setReply_memSize (r : Reply) (s : State) : (setReply r s).memSize = s.memSize := rfl
@[simp] theorem setReply_mem (r : Reply) (s : State) : (setReply r s).mem = s.mem := rfl
@[simp] theorem setReply_sink (r : Reply) (s : State) : (setReply r s).sink = s.sink := rfl
@[simp] theorem setReply_pending (r : Reply) (s : State) : (setReply r s).pending = s.pending := rfl
@[simp] theorem setReply_reply (r : Reply) (s : State) : (setReply r s).reply = r := rfl
@[simp] theorem setReply_sinkAnswers (r : Reply) (s : State) : (setReply r s).sinkAnswers = s.sinkAnswers := rfl
@[simp] theorem setReply_draws (r : Reply) (s : State) : (setReply r s).draws = s.draws := rfl

/-! ## The operand views of an updated state -/

@[simp] theorem dims_startCommand (i : Instr) (s : State) : dims (startCommand i s) = dims s := rfl
@[simp] theorem dims_raiseErr (e : ErrCode) (s : State) : dims (raiseErr e s) = dims s := rfl
@[simp] theorem dims_succeed (s : State) : dims (succeed s) = dims s := rfl
@[simp] theorem dims_setRes (v : Word) (s : State) : dims (setRes v s) = dims s := rfl
@[simp] theorem dims_setCrc (v : Word) (s : State) : dims (setCrc v s) = dims s := rfl
@[simp] theorem dims_setAdler (p : Nat × Nat) (s : State) : dims (setAdler p s) = dims s := rfl
@[simp] theorem dims_buildTable (s : State) : dims (buildTable s) = dims s := rfl
@[simp] theorem dims_setReply (r : Reply) (s : State) : dims (setReply r s) = dims s := rfl

end Sys2Proof.Machine
end

