-- ==== Sys2Proof/Laws/Checks.lean ====
section
/-! SUPPORT. The two checks and the frames of the commands that use them: when they pass, that the read after them is then
defined (20_memory.md R62), and what a command that they end leaves (60_exceptions.md R252, R259). -/

namespace Sys2Proof.Machine

/-- `Validate` passes exactly on valid operands (R150). -/
theorem validate_eq_none (s : State) : validate s = none ↔ Valid s := by
  unfold validate Valid blockLen paddedHeight paddedWidth maxLen dims
  simp only
  constructor
  · intro h
    split at h
    · cases h
    · split at h
      · cases h
      · split at h
        · cases h
        · omega
  · rintro ⟨h1, h2, h3, h4⟩
    rw [if_neg (by omega), if_neg (by omega), if_neg (by omega)]

/-- `CheckSpan` passes exactly on a span inside MEM (R119). -/
theorem checkSpan_eq_none (s : State) : checkSpan s = none ↔ SpanInside s := by
  unfold checkSpan SpanInside
  split
  · simp; omega
  · simp; omega

/-- `CheckSpan` raises `ADDR` and nothing else (R119). -/
theorem checkSpan_eq_addr {s : State} (h : ¬ SpanInside s) : checkSpan s = some .addr := by
  unfold SpanInside at h
  unfold checkSpan
  rw [if_pos (by omega)]

/-- The errors of `Validate` are `DIM` and `SIZE` (R150). -/
theorem validate_error {s : State} {e : ErrCode} (h : validate s = some e) : e = .dim ∨ e = .size := by
  unfold validate at h
  split at h
  · simp_all
  · split at h
    · simp_all
    · split at h <;> simp_all

/-- After the span check the read of the span is defined (R62, R64). -/
theorem spanBytes_of_inside {s : State} (h : SpanInside s) : spanBytes s = some (spanOf s) := by
  unfold spanBytes
  split
  · next h0 => simp [spanOf, memSpan, h0]
  · next h0 =>
    rw [memRead_eq, if_pos (h.resolve_left h0)]; rfl

/-- After `Validate` the read of the raster is defined (R62, R63). -/
theorem rasterBytes_of_valid {s : State} (h : Valid s) : rasterBytes s = some (rasterOf s) := by
  unfold rasterBytes
  rw [memRead_eq, if_pos (show s.rbase.toNat + (dims s).w * (dims s).h ≤ s.memSize from h.2.2.2)]
  rfl

@[simp] theorem afterCheck_some (e : ErrCode) (s : State) (k : State → Result) :
    afterCheck (some e) s k = .next (raiseErr e s) := rfl

@[simp] theorem afterCheck_none (s : State) (k : State → Result) : afterCheck none s k = k s := rfl

@[simp] theorem withBytes_some (bs : List Byte) (s : State) (k : List Byte → State → State) :
    withBytes (some bs) s k = .next (k bs s) := rfl

/-- A checksum command in full (R118, R123): `ADDR` and nothing else, or its effect on the bytes of the span. -/
theorem spanCommand_eq (i : Instr) (k : List Byte → State → State) (s : State) :
    (SpanInside s → spanCommand i k s = .next (k (spanOf s) (startCommand i s))) ∧
    (¬ SpanInside s → spanCommand i k s = .next { s with cmd := encode i, err := .addr }) := by
  refine ⟨fun h => ?_, fun h => ?_⟩
  · have : spanBytes (startCommand i s) = some (spanOf s) := spanBytes_of_inside (s := startCommand i s) h
    rw [spanCommand, (checkSpan_eq_none s).2 h, afterCheck_none, this, withBytes_some]
  · rw [spanCommand, checkSpan_eq_addr h, afterCheck_some]; rfl

/-- A raster command that reads the raster, in full (R150, R157): the error of `Validate` and nothing else, or its effect on
the bytes of the raster. -/
theorem rasterCommand_eq (i : Instr) (k : List Byte → State → State) (s : State) :
    (Valid s → rasterCommand i k s = .next (k (rasterOf s) (startCommand i s))) ∧
    (∀ e, validate s = some e → rasterCommand i k s = .next { s with cmd := encode i, err := e }) := by
  refine ⟨fun h => ?_, fun e h => ?_⟩
  · have : rasterBytes (startCommand i s) = some (rasterOf s) := rasterBytes_of_valid (s := startCommand i s) h
    rw [rasterCommand, (validate_eq_none s).2 h, afterCheck_none, this, withBytes_some]
  · rw [rasterCommand, h, afterCheck_some]; rfl

/-- Either `Validate` passes or it names an error: the two cases every raster command has. -/
theorem valid_or_error (s : State) : Valid s ∨ ∃ e, validate s = some e := by
  cases h : validate s with
  | none => exact .inl ((validate_eq_none s).1 h)
  | some e => exact .inr ⟨e, rfl⟩

end Sys2Proof.Machine
end

