-- ==== Sys2Proof/Laws/Checksum.lean ====
section
/-! SUPPORT. The CRC table and the two accumulators: what a table lookup gives, what `EnsureTable` leaves, and the state after a
computation of a checksum (41_checksum_engine.md R111 to R122). -/

namespace Sys2Proof.Machine

@[simp] theorem tableAt_tableOf (f : Byte → Word) (k : Byte) : tableAt (tableOf f) k = f k := by
  simp [tableAt, tableOf]

/-- Every entry of the built table is `Tbl` of its index (R112). -/
@[simp] theorem tableAt_builtTable (k : Byte) : tableAt builtTable k = tbl k := tableAt_tableOf tbl k

/-- `EnsureTable` on a state whose table is as its flag says (R115): the table is built, whether or not it was before. -/
theorem ensureTable_of_ok {s : State} (h : TableOk s) : ensureTable s = { s with tv := true, table := builtTable } := by
  unfold ensureTable
  cases htv : s.tv with
  | false => rfl
  | true =>
    have := h htv
    cases s
    simp_all

/-- After `EnsureTable` the flag is set; a table that was marked valid is left alone (R115). -/
theorem ensureTable_eq (s : State) :
    ensureTable s = { s with tv := true, table := if s.tv then s.table else builtTable } := by
  unfold ensureTable
  cases htv : s.tv with
  | false => rfl
  | true => cases s; simp_all

@[simp] theorem dims_ensureTable (s : State) : dims (ensureTable s) = dims s := by rw [ensureTable_eq]; rfl

/-- A computation of `crc32`, on any state. -/
theorem computeCrc_eq (bytes : List Byte) (s : State) :
    computeCrc bytes s =
      { s with
        tv := true
        table := if s.tv then s.table else builtTable
        crc := crcAccWith (if s.tv then s.table else builtTable) bytes } := by
  simp only [computeCrc, ensureTable_eq]
  rfl

/-- A computation of `crc32`, on a state whose table is as its flag says: `CRC` ends as `crc_acc` of the bytes (R113). -/
theorem computeCrc_of_ok {s : State} (h : TableOk s) (bytes : List Byte) :
    computeCrc bytes s = { s with tv := true, table := builtTable, crc := crcAcc bytes } := by
  simp only [computeCrc, ensureTable_of_ok h]
  rfl

/-- Both components are reduced after every byte (R120). -/
theorem adlerStep_lt (p : Nat × Nat) (b : Byte) :
    (adlerStep p b).1 < adlerMod ∧ (adlerStep p b).2 < adlerMod :=
  ⟨Nat.mod_lt _ (by decide), Nat.mod_lt _ (by decide)⟩

/-- A fold of `adlerStep` from reduced values ends in reduced values (R120, R122). -/
theorem foldl_adlerStep_lt (bytes : List Byte) {p : Nat × Nat} (h : p.1 < adlerMod ∧ p.2 < adlerMod) :
    (bytes.foldl adlerStep p).1 < adlerMod ∧ (bytes.foldl adlerStep p).2 < adlerMod := by
  induction bytes generalizing p with
  | nil => exact h
  | cons b rest ih => exact ih (adlerStep_lt p b)

theorem computeAdler_eq (bytes : List Byte) (s : State) :
    computeAdler bytes s =
      { s with s1 := BitVec.ofNat 16 (adlerAcc bytes).1, s2 := BitVec.ofNat 16 (adlerAcc bytes).2 } := rfl

/-- The register `ADLER` as a number: `S2 * 65536 + S1` (R36). -/
theorem adlerWord_toNat (s : State) : (adlerWord s).toNat = s.s2.toNat * 65536 + s.s1.toNat := by
  show (s.s2 ++ s.s1 : BitVec (16 + 16)).toNat = _
  rw [BitVec.toNat_append, ← Nat.shiftLeft_add_eq_or_of_lt s.s1.isLt, Nat.shiftLeft_eq]

/-- The final XOR is the complement `not32` (R7, R114). -/
theorem crcFinal_eq_not (c : Word) : crcFinal c = ~~~ c := by
  rw [crcFinal, BitVec.xor_comm]
  exact BitVec.allOnes_xor

/-- One shift step is linear over XOR: both the shift and the choice of the polynomial are. -/
theorem crcShift_xor (a b : Word) : crcShift (a ^^^ b) = crcShift a ^^^ crcShift b := by
  unfold crcShift
  rw [BitVec.getLsbD_xor, BitVec.ushiftRight_xor_distrib]
  cases a.getLsbD 0 <;> cases b.getLsbD 0 <;> simp
  · rw [BitVec.xor_assoc]
  · rw [BitVec.xor_assoc, BitVec.xor_assoc, BitVec.xor_comm (b >>> 1)]
  · rw [BitVec.xor_assoc, ← BitVec.xor_assoc crcPoly, BitVec.xor_comm crcPoly (b >>> 1), BitVec.xor_assoc (b >>> 1),
      BitVec.xor_self, BitVec.xor_zero]

end Sys2Proof.Machine
end

