-- ==== Sys2Proof/Laws/Lengths.lean ====
section
/-! SUPPORT. The lengths of the byte sequences the CORE builds (43_pixel_assembler.md R152, R155; 44_zlib_wrapper.md R175;
45_chunk_framer.md R190, R205). -/

namespace Sys2Proof.Machine

@[simp] theorem be32_length (v : Word) : (be32 v).length = 4 := rfl
@[simp] theorem le16_length (v : Half) : (le16 v).length = 2 := rfl
@[simp] theorem lenFields_length (n : Nat) : (lenFields n).length = 4 := rfl
@[simp] theorem zlibHeader_length : zlibHeader.length = 2 := rfl
@[simp] theorem storedHeader_length : storedHeader.length = 1 := rfl
@[simp] theorem sigBytes_length : sigBytes.length = 8 := rfl
@[simp] theorem iendBytes_length : iendBytes.length = 12 := rfl
@[simp] theorem typeIhdr_length : typeIhdr.length = 4 := rfl
@[simp] theorem typeIdat_length : typeIdat.length = 4 := rfl
@[simp] theorem ihdrRecord_length (d : Dims) : (ihdrRecord d).length = 13 := rfl

@[simp] theorem chunkWith_length (t d : List Byte) (c : Word) : (chunkWith t d c).length = t.length + d.length + 8 := by
  simp [chunkWith]; omega

@[simp] theorem zlibStream_length (n : Nat) (block : List Byte) : (zlibStream n block).length = block.length + 11 := by
  simp [zlibStream]; omega

/-- A row of a raster of `W * H` bytes has `W` bytes (R154). -/
theorem rasterRow_length {d : Dims} {raster : List Byte} (h : raster.length = d.w * d.h) {k : Nat} (hk : k < d.h) :
    (rasterRow d raster k).length = d.w := by
  have : (k + 1) * d.w ≤ d.w * d.h := by rw [Nat.mul_comm d.w]; exact Nat.mul_le_mul_right _ hk
  have h2 : (k + 1) * d.w = k * d.w + d.w := by ring
  simp [rasterRow, h]; omega

/-- A padded row has `PW` samples, border row or picture row (R154). -/
theorem paddedRow_length {d : Dims} {raster : List Byte} (h : raster.length = d.w * d.h) (r : Nat) :
    (paddedRow d raster r).length = paddedWidth d := by
  unfold paddedRow
  split
  · next hr =>
    simp [rasterRow_length h (show r - d.b < d.h by omega), paddedWidth]; omega
  · simp

theorem scanline_length {d : Dims} {raster : List Byte} (h : raster.length = d.w * d.h) (r : Nat) :
    (scanline d raster r).length = paddedWidth d + 1 := by
  simp [scanline, paddedRow_length h]

theorem flatMap_length_const {α β : Type} (l : List α) (f : α → List β) (n : Nat) (h : ∀ x ∈ l, (f x).length = n) :
    (l.flatMap f).length = l.length * n := by
  induction l with
  | nil => simp
  | cons a l ih =>
    simp only [List.flatMap_cons, List.length_append, List.length_cons, h a (by simp),
      ih fun x hx => h x (by simp [hx])]
    ring

/-- `len(SLB) = LEN` (R152, R155 (b)). -/
theorem scanlineBlock_length {d : Dims} {raster : List Byte} (h : raster.length = d.w * d.h) :
    (scanlineBlock d raster).length = blockLen d := by
  unfold scanlineBlock blockLen
  rw [flatMap_length_const _ _ (paddedWidth d + 1) fun r _ => scanline_length h r]
  simp

@[simp] theorem rasterOf_length (s : State) : (rasterOf s).length = (dims s).w * (dims s).h := memSpan_length ..

/-- The scanline block of the raster in MEM has `LEN` bytes. -/
@[simp] theorem scanlineBlock_rasterOf_length (s : State) :
    (scanlineBlock (dims s) (rasterOf s)).length = blockLen (dims s) := scanlineBlock_length (rasterOf_length s)

@[simp] theorem zlibOf_rasterOf_length (s : State) :
    (zlibOf (dims s) (rasterOf s)).length = blockLen (dims s) + 11 := by simp [zlibOf]

end Sys2Proof.Machine
end

