-- ==== Sys2Proof/Laws/PerInstr.lean ====
section
/-! SUPPORT. Statements about every command as syntax, one lemma per constructor (LAWS.json names the families). -/

namespace Sys2Proof.Laws

/-- The word of a command is of format C with the command's opcode, and the opcode is assigned (30_encoding.md R90, R92). -/
def CommandWord.Statement (i : Instr) : Prop :=
  zeroField (encode i) = 0 ∧ opField (encode i) = opcode i ∧ 1 ≤ (opcode i).toNat ∧ (opcode i).toNat ≤ 12

theorem CommandWord.tblinit : CommandWord.Statement .tblinit := by unfold CommandWord.Statement; decide
theorem CommandWord.crc32 : CommandWord.Statement .crc32 := by unfold CommandWord.Statement; decide
theorem CommandWord.adler32 : CommandWord.Statement .adler32 := by unfold CommandWord.Statement; decide
theorem CommandWord.be32 : CommandWord.Statement .be32 := by unfold CommandWord.Statement; decide
theorem CommandWord.putbe32 : CommandWord.Statement .putbe32 := by unfold CommandWord.Statement; decide
theorem CommandWord.pad : CommandWord.Statement .pad := by unfold CommandWord.Statement; decide
theorem CommandWord.zwrap : CommandWord.Statement .zwrap := by unfold CommandWord.Statement; decide
theorem CommandWord.sig : CommandWord.Statement .sig := by unfold CommandWord.Statement; decide
theorem CommandWord.ihdr : CommandWord.Statement .ihdr := by unfold CommandWord.Statement; decide
theorem CommandWord.idat : CommandWord.Statement .idat := by unfold CommandWord.Statement; decide
theorem CommandWord.iend : CommandWord.Statement .iend := by unfold CommandWord.Statement; decide
theorem CommandWord.encpng : CommandWord.Statement .encpng := by unfold CommandWord.Statement; decide

end Sys2Proof.Laws
end

