-- ==== Sys2Proof/Laws/Sink.lean ====
section
/-! SUPPORT. The write pass: the loop over single byte writes (20_memory.md R66, R67) is the one equation `afterPass`. -/

namespace Sys2Proof.Machine

/-- The answers seen after one answer has been used up are the later ones. -/
theorem answerAt_nextAnswer (s : State) (k : Nat) : answerAt (nextAnswer s).2 k = answerAt s (k + 1) := by
  unfold nextAnswer answerAt
  cases h : s.sinkAnswers with
  | nil => simp [Nat.add_assoc, Nat.add_comm 1 k]
  | cons a rest => simp

theorem nextAnswer_fst (s : State) : (nextAnswer s).1 = answerAt s 0 := by
  unfold nextAnswer answerAt
  cases h : s.sinkAnswers <;> simp

/-- What using up one answer does to the state: nothing but that. -/
theorem nextAnswer_snd (s : State) :
    (nextAnswer s).2 = { s with sinkAnswers := s.sinkAnswers.drop 1, draws := s.draws + (1 - s.sinkAnswers.length) } := by
  unfold nextAnswer
  cases h : s.sinkAnswers with
  | nil => simp
  | cons a rest => simp

/-- `answerAt` looks at the settled answers and the draw number only. -/
theorem answerAt_congr {s t : State} (h1 : s.sinkAnswers = t.sinkAnswers) (h2 : s.draws = t.draws) (k : Nat) :
    answerAt s k = answerAt t k := by
  unfold answerAt; rw [h1, h2]

theorem acceptedCount_congr {s t : State} (h1 : s.sinkAnswers = t.sinkAnswers) (h2 : s.draws = t.draws) (n : Nat) :
    acceptedCount s n = acceptedCount t n := by
  unfold acceptedCount; simp only [answerAt_congr h1 h2]

@[simp] theorem acceptedCount_zero (s : State) : acceptedCount s 0 = 0 := rfl

theorem acceptedCount_succ (s : State) (n : Nat) :
    acceptedCount s (n + 1) = if answerAt s 0 = .ok then acceptedCount (nextAnswer s).2 n + 1 else 0 := by
  unfold acceptedCount
  rw [List.range_succ_eq_map, List.takeWhile_cons]
  split
  · next h =>
    simp only [decide_eq_true_eq] at h
    simp only [h, if_true, List.length_cons, List.takeWhile_map, List.length_map]
    congr 3
    funext k
    simp [Function.comp, answerAt_nextAnswer]
  · next h => simp_all

theorem acceptedCount_le (s : State) (n : Nat) : acceptedCount s n ≤ n := by
  unfold acceptedCount
  exact (List.takeWhile_sublist _).length_le.trans (by simp)

/-- Every byte before the count is accepted. -/
theorem answerAt_of_lt {s : State} {n k : Nat} (h : k < acceptedCount s n) : answerAt s k = .ok := by
  induction n generalizing s k with
  | zero => simp at h
  | succ n ih =>
    rw [acceptedCount_succ] at h
    split at h
    · next h0 =>
      cases k with
      | zero => exact h0
      | succ k => rw [← answerAt_nextAnswer]; exact ih (by omega)
    · omega

/-- The byte at the count, if the pass has one, is refused. -/
theorem answerAt_acceptedCount {s : State} {n : Nat} (h : acceptedCount s n < n) :
    answerAt s (acceptedCount s n) = .fail := by
  induction n generalizing s with
  | zero => omega
  | succ n ih =>
    rw [acceptedCount_succ] at h ⊢
    split at h
    · next h0 =>
      rw [if_pos h0, ← answerAt_nextAnswer]
      exact ih (by omega)
    · next h0 =>
      rw [if_neg h0]
      revert h0
      cases answerAt s 0 <;> simp

theorem acceptedCount_eq_of_accepts {s : State} {n : Nat} (h : SinkAccepts s n) : acceptedCount s n = n := by
  rcases Nat.lt_or_ge (acceptedCount s n) n with hlt | hge
  · have := answerAt_acceptedCount hlt
    rw [h _ hlt] at this
    cases this
  · exact Nat.le_antisymm (acceptedCount_le s n) hge

/-- The state after the loop of the write pass, from any value of `POS`. -/
theorem writeLoop_eq (bytes : List Byte) (s : State) :
    writeLoop bytes s =
      { afterPass bytes s with pos := s.pos + BitVec.ofNat 32 (acceptedCount s bytes.length) } := by
  induction bytes generalizing s with
  | nil => simp [writeLoop, afterPass, succeed, answersUsed]
  | cons b rest ih =>
    have hfst := nextAnswer_fst s
    have hsnd := nextAnswer_snd s
    have hsucc := acceptedCount_succ s rest.length
    unfold writeLoop sinkWrite
    cases h : nextAnswer s with
    | mk ans t =>
      rw [h] at hfst hsnd hsucc
      simp only at hfst hsnd hsucc
      cases ans with
      | ok =>
        rw [if_pos hfst.symm] at hsucc
        have hcong : acceptedCount { t with sink := t.sink ++ [b], pos := t.pos + 1 } rest.length =
            acceptedCount t rest.length := acceptedCount_congr rfl rfl _
        generalize acceptedCount t rest.length = a at hsucc hcong
        simp only [ih, afterPass, answersUsed, hcong, List.length_cons, hsucc]
        subst hsnd
        have hmin : min (rest.length + 1) (a + 1 + 1) = min rest.length (a + 1) + 1 := by omega
        simp only [hmin, State.mk.injEq, true_and]
        refine ⟨by simp, ?_, by simp, by rw [List.drop_drop, Nat.add_comm], by simp only [List.length_drop]; omega⟩
        rw [BitVec.add_assoc, BitVec.add_comm 1, BitVec.ofNat_add]
        rfl
      | fail =>
        have hne : ¬ answerAt s 0 = .ok := by rw [← hfst]; simp
        rw [if_neg hne] at hsucc
        simp [raiseErr, afterPass, answersUsed, hsucc, hsnd]

/-- The write pass, once and for all (R67): the answers decide how many bytes are accepted, and everything else follows. -/
theorem writePass_eq (bytes : List Byte) (s : State) : writePass bytes s = afterPass bytes s := by
  unfold writePass
  rw [writeLoop_eq]
  have h : acceptedCount { s with pos := 0 } bytes.length = acceptedCount s bytes.length := acceptedCount_congr rfl rfl _
  simp only [afterPass, answersUsed, h, State.mk.injEq, true_and, and_true]
  exact BitVec.zero_add _

/-- What an emitting command does once its bytes are known: `RES` is their number, then the write pass. -/
theorem emit_eq (bytes : List Byte) (s : State) :
    emit bytes s = afterPass bytes { s with res := BitVec.ofNat 32 bytes.length } := by
  unfold emit
  rw [writePass_eq]; rfl

end Sys2Proof.Machine
end

