-- ==== Sys2Proof/Tests/Slice0.lean ====
section
/-! SUPPORT. The model's own tests. Expected results are the vectors of 95_test_vectors.md (the id stands beside each) or words
written out from 30_encoding.md R92; `witness_` theorems show states that meet the hypotheses of the obligations. -/

namespace Sys2Proof.Tests

set_option Elab.async false

open Sys2Proof Sys2Proof.Machine

/-! ## Helpers -/

/-- The default start state of 95_test_vectors.md: `MEM_SIZE = 65536`, MEM all zero, SINK empty. -/
def base : State := { State.reset with memSize := 65536 }

/-- MEM with the bytes given, none of them 0, from an address upward. -/
def cells (a : Nat) (bytes : List Byte) : Memory := (List.range bytes.length).zipWith (fun k b => (a + k, b)) bytes

/-- `base` with a checksum span. -/
def spanState (a n : Word) (m : Memory) : State := { base with srca := a, srcn := n, mem := m }

/-- `base` with a picture, and a sink that accepts the next 100 bytes. -/
def picture (w h b r : Word) (m : Memory) : State :=
  sinkOk 100 { base with width := w, height := h, border := b, rbase := r, mem := m }

/-- The raster `10 20` of the vectors T-PAD-2, T-ZW-3, T-IDAT-3, T-ENC-2, at address `a`. -/
def raster2 (a : Nat) : Memory := cells a [0x10, 0x20]

/-- What an outcome leaves in a field, if it is a next state. -/
def after {α : Type} (r : Result) (f : State → α) : Option α :=
  match r with
  | .next t => some (f t)
  | .fault _ => none
  | .refused _ => none

/-- `STATUS` and `RES` and `POS` together. -/
def statusResPos (s : State) : Word × Word × Word := (statusWord s, s.res, s.pos)

/-- A host transaction as the only one pending. -/
def host (t : Transaction) (s : State) : State := { s with pending := [t] }

/-! ## Well-formedness: each check refuses an ill-formed term -/

theorem test_wf_opcode_zero : wordWf 0x00000000 = false := by decide
theorem test_wf_opcode_thirteen : wordWf 0x0000000D = false := by decide
theorem test_wf_zero_field : wordWf 0x0000010C = false := by decide
theorem test_wf_twelve : wordWf 0x0000000C = true := by decide
theorem test_wf_wrmem_outside : Transaction.wf 65536 (.wrmem 65536 0xAB) = false := by decide
theorem test_wf_rdmem_outside : Transaction.wf 65536 (.rdmem 65536) = false := by decide
theorem test_wf_rdmem_last : Transaction.wf 65536 (.rdmem 65535) = true := by decide
theorem test_wf_memory_order : ¬ Memory.wf [(5, 1), (4, 1)] := by decide
theorem test_wf_memory_zero : ¬ Memory.wf [(5, 0)] := by decide

/-! ## Decoding: the words of R92, bit by bit -/

theorem test_decode_tblinit : decode 0b00000000_00000000_00000000_00000001 = .ok .tblinit := by decide
theorem test_decode_crc32 : decode 0b00000000_00000000_00000000_00000010 = .ok .crc32 := by decide
theorem test_decode_adler32 : decode 0b00000000_00000000_00000000_00000011 = .ok .adler32 := by decide
theorem test_decode_be32 : decode 0b00000000_00000000_00000000_00000100 = .ok .be32 := by decide
theorem test_decode_putbe32 : decode 0b00000000_00000000_00000000_00000101 = .ok .putbe32 := by decide
theorem test_decode_pad : decode 0b00000000_00000000_00000000_00000110 = .ok .pad := by decide
theorem test_decode_zwrap : decode 0b00000000_00000000_00000000_00000111 = .ok .zwrap := by decide
theorem test_decode_sig : decode 0b00000000_00000000_00000000_00001000 = .ok .sig := by decide
theorem test_decode_ihdr : decode 0b00000000_00000000_00000000_00001001 = .ok .ihdr := by decide
theorem test_decode_idat : decode 0b00000000_00000000_00000000_00001010 = .ok .idat := by decide
theorem test_decode_iend : decode 0b00000000_00000000_00000000_00001011 = .ok .iend := by decide
theorem test_decode_encpng : decode 0b00000000_00000000_00000000_00001100 = .ok .encpng := by decide
theorem test_decode_bit_31 : decode 0b10000000_00000000_00000000_00001100 = .error .zeroFieldSet := by decide
theorem test_decode_bit_8 : decode 0b00000000_00000000_00000001_00000001 = .error .zeroFieldSet := by decide
theorem test_decode_bit_4 : decode 0b00000000_00000000_00000000_00010001 = .error .opcodeUnassigned := by decide
theorem test_table_word_encpng : decodeTableWord 32 12 = some .encpng := by decide
theorem test_table_word_above : decodeTableWord 32 (2 ^ 31 + 12) = none := by decide

/-- From reset, each of the twelve words placed for the next step runs to a next state. -/
theorem test_first_step :
    (List.range 12).all (fun k => after (step (State.reset.withFetchWord 32 (k + 1))) (fun _ => ()) = some ()) = true := by
  decide +kernel

/-! ## Commands -/

/-- T-TBL-2. -/
theorem test_tblinit_status : after (exec .tblinit base) statusWord = some 0x00000001 := by decide +kernel
/-- T-TBL-3, `n = 158`. -/
theorem test_tblinit_entry : after (exec .tblinit base) (fun t => tableAt t.table 158) = some 0x17B7BE43 := by decide +kernel

/-- T-CRC-14: "abc" in the last three bytes of MEM. -/
theorem test_crc32_last_bytes :
    after (exec .crc32 (spanState 65533 3 (cells 65533 [0x61, 0x62, 0x63]))) (fun t => (t.res, t.crc, statusWord t)) =
      some (0x352441C2, 0xCADBBE3D, 0x00000001) := by decide +kernel
/-- T-CRC-16: the sum does not wrap, and the table is not built. -/
theorem test_crc32_outside :
    after (exec .crc32 (spanState 0xFFFFFFFF 2 [])) (fun t => (t.res, t.crc, statusWord t)) = some (0, 0, 0x00000400) := by
  decide +kernel

/-- T-ADL-10: "Wikipedia". -/
theorem test_adler32_reference :
    after (exec .adler32 (spanState 0 9 (cells 0 [0x57, 0x69, 0x6B, 0x69, 0x70, 0x65, 0x64, 0x69, 0x61])))
      (fun t => (t.res, t.s1, t.s2, statusWord t)) = some (0x11E60398, 920, 4582, 0) := by decide +kernel
/-- T-ADL-18. -/
theorem test_adler32_outside :
    after (exec .adler32 (spanState 65535 2 [])) (fun t => (t.res, t.s1, t.s2, statusWord t)) = some (0, 0, 0, 0x00000400) := by
  decide +kernel

/-- T-BE-1. -/
theorem test_be32 : after (exec .be32 { base with val := 0x12345678 }) (fun t => (t.res, t.val)) =
    some (0x78563412, 0x12345678) := by decide
/-- T-BE-3. -/
theorem test_be32_crc : after (exec .be32 { base with val := 0xAE426082 }) (·.res) = some 0x826042AE := by decide

/-- T-BE-7. -/
theorem test_putbe32 : after (exec .putbe32 (sinkOk 4 { base with val := 0x12345678 })) (fun t => (t.sink, statusResPos t)) =
    some ([0x12, 0x34, 0x56, 0x78], 0, 4, 4) := by decide
/-- T-BE-10. -/
theorem test_putbe32_io :
    after (exec .putbe32 (sinkFailAt 2 { base with val := 0x12345678 })) (fun t => (t.sink, statusResPos t)) =
      some ([0x12, 0x34], 0x00000100, 4, 2) := by decide

/-- T-PAD-5: two raster rows, so a wrong row stride shows. -/
theorem test_pad : after (exec .pad (picture 1 2 1 0 (cells 0 [0xAA, 0x55]))) (fun t => (t.sink, statusResPos t)) =
    some ([0x00, 0xFF, 0xFF, 0xFF, 0x00, 0xFF, 0xAA, 0xFF, 0x00, 0xFF, 0x55, 0xFF, 0x00, 0xFF, 0xFF, 0xFF], 0, 16, 16) := by
  decide +kernel
/-- T-PAD-10. -/
theorem test_pad_io : after (exec .pad (sinkFailAt 7 (picture 2 1 1 0 (raster2 0)))) (fun t => (t.sink, statusResPos t)) =
    some ([0x00, 0xFF, 0xFF, 0xFF, 0xFF, 0x00, 0xFF], 0x00000100, 15, 7) := by decide +kernel

/-- T-ZW-3. -/
theorem test_zwrap : after (exec .zwrap (picture 2 1 1 0 (raster2 0))) (fun t => (t.sink, t.s1, t.s2, statusResPos t)) =
    some ([0x78, 0x9C, 0x01, 0x0F, 0x00, 0xF0, 0xFF,
      0x00, 0xFF, 0xFF, 0xFF, 0xFF, 0x00, 0xFF, 0x10, 0x20, 0xFF, 0x00, 0xFF, 0xFF, 0xFF, 0xFF,
      0x4C, 0x24, 0x0A, 0x27], 2599, 19492, 0, 26, 26) := by decide +kernel
/-- T-ZW-9. -/
theorem test_zwrap_io : after (exec .zwrap (sinkFailAt 3 (picture 1 1 0 0 []))) (fun t => (t.sink, t.s1, t.s2, statusResPos t)) =
    some ([0x78, 0x9C, 0x01], 1, 2, 0x00000100, 13, 3) := by decide +kernel

/-- T-SIG-1. -/
theorem test_sig : after (exec .sig (sinkOk 8 base)) (fun t => (t.sink, statusResPos t)) =
    some ([0x89, 0x50, 0x4E, 0x47, 0x0D, 0x0A, 0x1A, 0x0A], 0, 8, 8) := by decide
/-- T-SIG-2. -/
theorem test_sig_io : after (exec .sig (sinkFailAt 0 base)) (fun t => (t.sink, statusResPos t)) =
    some ([], 0x00000100, 8, 0) := by decide

/-- T-IHDR-2. -/
theorem test_ihdr : after (exec .ihdr (picture 2 1 1 0 [])) (fun t => (t.sink, t.crc, statusResPos t)) =
    some ([0x00, 0x00, 0x00, 0x0D, 0x49, 0x48, 0x44, 0x52, 0x00, 0x00, 0x00, 0x04, 0x00, 0x00, 0x00, 0x03,
      0x08, 0x00, 0x00, 0x00, 0x00, 0x91, 0x9F, 0xF1, 0x1A], 0x6E600EE5, 1, 25, 25) := by decide +kernel
/-- T-IHDR-7. -/
theorem test_ihdr_extent : after (exec .ihdr (picture 1 1 0 65536 [])) (fun t => (t.sink, statusResPos t)) =
    some ([], 0x00000300, 0, 0) := by decide +kernel

/-- T-IDAT-3. -/
theorem test_idat : after (exec .idat (picture 2 1 1 0 (raster2 0))) (fun t => (t.sink, t.crc, adlerWord t, statusResPos t)) =
    some ([0x00, 0x00, 0x00, 0x1A, 0x49, 0x44, 0x41, 0x54, 0x78, 0x9C, 0x01, 0x0F, 0x00, 0xF0, 0xFF,
      0x00, 0xFF, 0xFF, 0xFF, 0xFF, 0x00, 0xFF, 0x10, 0x20, 0xFF, 0x00, 0xFF, 0xFF, 0xFF, 0xFF,
      0x4C, 0x24, 0x0A, 0x27, 0x8A, 0x2F, 0x99, 0x75], 0x75D0668A, 0x4C240A27, 1, 38, 38) := by decide +kernel
/-- T-IDAT-6. -/
theorem test_idat_io :
    after (exec .idat (sinkFailAt 24 (picture 1 1 0 0 []))) (fun t => (t.sink.length, t.crc, adlerWord t, statusResPos t)) =
      some (24, 0x738A71DF, 0x00020001, 0x00000101, 25, 24) := by decide +kernel

/-- T-IEND-1. -/
theorem test_iend : after (exec .iend (sinkOk 12 base)) (fun t => (t.sink, statusResPos t)) =
    some ([0x00, 0x00, 0x00, 0x00, 0x49, 0x45, 0x4E, 0x44, 0xAE, 0x42, 0x60, 0x82], 0, 12, 12) := by decide
/-- T-IEND-2. -/
theorem test_iend_io : after (exec .iend (sinkFailAt 11 base)) (fun t => (t.sink.length, statusResPos t)) =
    some (11, 0x00000100, 12, 11) := by decide

/-- T-ENC-2, with the raster at 0x100 as in P2: the whole file. -/
theorem test_encpng : after (exec .encpng (picture 2 1 1 0x100 (raster2 0x100))) (fun t => (t.sink, t.crc, statusResPos t)) =
    some ([0x89, 0x50, 0x4E, 0x47, 0x0D, 0x0A, 0x1A, 0x0A,
      0x00, 0x00, 0x00, 0x0D, 0x49, 0x48, 0x44, 0x52, 0x00, 0x00, 0x00, 0x04, 0x00, 0x00, 0x00, 0x03,
      0x08, 0x00, 0x00, 0x00, 0x00, 0x91, 0x9F, 0xF1, 0x1A,
      0x00, 0x00, 0x00, 0x1A, 0x49, 0x44, 0x41, 0x54, 0x78, 0x9C, 0x01, 0x0F, 0x00, 0xF0, 0xFF,
      0x00, 0xFF, 0xFF, 0xFF, 0xFF, 0x00, 0xFF, 0x10, 0x20, 0xFF, 0x00, 0xFF, 0xFF, 0xFF, 0xFF,
      0x4C, 0x24, 0x0A, 0x27, 0x8A, 0x2F, 0x99, 0x75,
      0x00, 0x00, 0x00, 0x00, 0x49, 0x45, 0x4E, 0x44, 0xAE, 0x42, 0x60, 0x82], 0x75D0668A, 1, 83, 83) := by decide +kernel
/-- T-ERR-6: no wrap at 32 bits. -/
theorem test_encpng_no_wrap :
    after (exec .encpng (picture 0xFFFFFFFF 0xFFFFFFFF 0xFFFFFFFF 0 [])) (fun t => (t.sink, statusResPos t)) =
      some ([], 0x00000200, 0, 0) := by decide +kernel

/-! ## Host transactions -/

/-- T-ERR-2. -/
theorem test_illegal_word : after (step (host (.wrreg .cmd 0x8000000C) base)) (fun t => (t.cmd, statusWord t)) =
    some (0x8000000C, 0x00000500) := by decide
/-- T-TBL-4: only 8 bits of `TBLIDX` are kept. -/
theorem test_tblidx_low_bits : after (step (host (.wrreg .tblidx 0x00000180) base)) (·.tblidx) = some 0x80 := by decide
/-- T-TBL-4: `TBLDAT` shows the selected entry. -/
theorem test_tbldat : after (step (host (.rdreg .tbldat) { buildTable base with tblidx := 0x80 })) (·.reply) =
    some (.word 0xEDB88320) := by decide +kernel
/-- T-HOST-5: `ADLER` after T-ENC-1. -/
theorem test_adler_register : after (step (host (.rdreg .adler) { base with s1 := 1, s2 := 2 })) (·.reply) =
    some (.word 0x00020001) := by decide
/-- T-HOST-3: a write to a read-only register changes nothing. -/
theorem test_read_only_ignored : after (step (host (.wrreg .crc 1) { base with crc := 7 })) (fun t => (t.crc, t.err)) =
    some (7, .ok) := by decide
/-- T-HOST-4. -/
theorem test_wrmem : after (step (host (.wrmem 5 0xAB) base)) (fun t => (t.mem, memByte t.mem 5)) =
    some ([(5, 0xAB)], 0xAB) := by decide
/-- T-TBL-7 and T-HOST-6: reset clears `TV` and leaves MEM and SINK. -/
theorem test_reset : after (step (host .reset { base with tv := true, width := 9, mem := [(5, 0xAB)], sink := [1] }))
    (fun t => (statusWord t, t.width, t.mem, t.sink)) = some (0, 0, [(5, 0xAB)], [1]) := by decide
/-- U5: a memory transaction at `MEM_SIZE` is no transaction. -/
theorem test_wrmem_outside : step (host (.wrmem 65536 1) base) = .refused .noSuchMemAddress := rfl
/-- R21: register 12 is at byte offset 48. -/
theorem test_register_offset : regAtOffset 48 = some .adler := by decide
/-- R21, U6: no register is at an unaligned offset, and none above index 15. -/
theorem test_register_offset_absent : regAtOffset 50 = none ∧ regAtOffset 64 = none := by decide
/-- R97: `LDMEM`. -/
theorem test_ldmem : expandLine (.ldmem 0x100 [0x10, 0x20]) = [.wrmem 0x100 0x10, .wrmem 0x101 0x20] := by decide

/-! ## Witnesses: states that meet the hypotheses of the obligations, clause by clause -/

theorem base_tableOk : TableOk base := by intro h; exact absurd h (by decide)

theorem built_tableOk : TableOk (buildTable base) := fun _ => rfl

theorem base_coreInv : CoreInv base where
  s1_lt := by decide
  s2_lt := by decide
  tableOk := base_tableOk
  pos_le := by decide
  memWf := by decide
  memInside := by decide
  memSize_le := by decide

/-- StepRunsTheIssuedCommand, both parts. -/
theorem witness_issue :
    (host (.wrreg .cmd 0x0000000C) base).pending = .wrreg .cmd 0x0000000C :: [] ∧ decode 0x0000000C = .ok .encpng := by decide

/-- IllegalWordOnlyRaisesIllegal: the words next to the assigned ones. -/
theorem witness_illegal :
    (host (.wrreg .cmd 0x0000000D) base).pending = .wrreg .cmd 0x0000000D :: [] ∧
    (∀ i, (0x0000000D : Word) ≠ encode i) ∧ (∀ i, (0x00000000 : Word) ≠ encode i) :=
  ⟨rfl, fun i => by cases i <;> decide, fun i => by cases i <;> decide⟩

/-- IdleWithoutTransactions. -/
theorem witness_idle : base.pending = [] := rfl

/-- ResetTransactionClearsTheCore: a state with something to clear and something to keep. -/
theorem witness_reset :
    (host .reset { base with tv := true, width := 9, mem := [(5, 0xAB)], sink := [1] }).pending = .reset :: [] := rfl

/-- RegistersReadZeroAfterReset, RegisterMapIsExact: the last register and the first index that does not exist. -/
theorem witness_register_edges : Reg.reserved15 ≠ .tbldat ∧ 15 < 16 := by decide

/-- RegisterReadsReturnTheRegister: another register, `TBLDAT` with the table built, `TBLDAT` without. -/
theorem witness_register_read :
    ((host (.rdreg .adler) base).pending = .rdreg .adler :: [] ∧ Reg.adler ≠ .tbldat) ∧
    ((host (.rdreg .tbldat) (buildTable base)).pending = .rdreg .tbldat :: [] ∧
      (host (.rdreg .tbldat) (buildTable base)).tv = true) ∧
    ((host (.rdreg .tbldat) base).pending = .rdreg .tbldat :: [] ∧ (host (.rdreg .tbldat) base).tv = false) := by
  refine ⟨⟨rfl, by decide⟩, ⟨rfl, rfl⟩, rfl, rfl⟩

/-- RegisterWritesStoreOrAreIgnored: a register narrower than the value written. -/
theorem witness_register_write : (host (.wrreg .tblidx 0x1FF) base).pending = .wrreg .tblidx 0x1FF :: [] := rfl

/-- MemoryWriteChangesOneByte, MemoryReadReturnsTheByte: the last byte of MEM. MemoryTransactionOutsideIsRefused: the address
after it. -/
theorem witness_memory :
    Memory.wf (host (.wrmem 65535 0xAB) base).mem ∧
    (host (.wrmem 65535 0xAB) base).pending = .wrmem 65535 0xAB :: [] ∧ 65535 < base.memSize ∧
    (host (.rdmem 65535) base).pending = .rdmem 65535 :: [] ∧
    base.memSize ≤ 65536 ∧ (host (.wrmem 65536 0xAB) base).pending = .wrmem 65536 0xAB :: [] ∧
    (host (.rdmem 65536) base).pending = .rdmem 65536 :: [] := by
  refine ⟨by decide, rfl, by decide, rfl, by decide, rfl, rfl⟩

/-- CrcCommandChecksumsTheSpan, AdlerCommandChecksumsTheSpan: a span that ends at the last byte, an empty one at the highest
address, and one that leaves MEM by a byte; with the table built and not. -/
theorem witness_span :
    TableOk (spanState 65533 3 []) ∧ SpanInside (spanState 65533 3 []) ∧
    SpanInside (spanState 0xFFFFFFFF 0 []) ∧ ¬ SpanInside (spanState 65534 3 []) ∧
    TableOk { buildTable base with srca := 65533, srcn := 3 } ∧ SpanInside { buildTable base with srca := 65533, srcn := 3 } := by
  refine ⟨fun h => absurd h (by decide), .inr (by decide), .inl (by decide), ?_, fun _ => rfl, .inr (by decide)⟩
  rintro (h | h) <;> exact absurd h (by decide)

/-- PosCountsAcceptedBytes: the case `ERR = 0` and the case `IO`. -/
theorem witness_pos :
    isEmitting .sig = true ∧
    (∃ t, exec .sig (sinkOk 8 base) = .next t ∧ t.err = .ok) ∧ (∃ t, exec .sig (sinkFailAt 7 base) = .next t ∧ t.err = .io) :=
  ⟨rfl, ⟨_, rfl, by decide⟩, _, rfl, by decide⟩

/-- RasterChecksFailInOrder: zero width; `LEN = 65536`; a raster one byte too long for MEM. -/
theorem witness_raster_checks :
    isRaster .ihdr = true ∧ (picture 0 5 0 0 []).width.toNat = 0 ∧
    65535 < ((picture 65535 1 0 0 []).height.toNat + 2 * (picture 65535 1 0 0 []).border.toNat) *
      ((picture 65535 1 0 0 []).width.toNat + 2 * (picture 65535 1 0 0 []).border.toNat + 1) ∧
    ((picture 2 2 0 65533 []).height.toNat + 2 * (picture 2 2 0 65533 []).border.toNat) *
      ((picture 2 2 0 65533 []).width.toNat + 2 * (picture 2 2 0 65533 []).border.toNat + 1) ≤ 65535 ∧
    (picture 2 2 0 65533 []).memSize <
      (picture 2 2 0 65533 []).rbase.toNat + (picture 2 2 0 65533 []).width.toNat * (picture 2 2 0 65533 []).height.toNat := by
  decide

/-- `Valid`, for every statement that assumes it: the widest picture, the widest border, and a raster that ends at the last byte
of MEM. -/
theorem witness_valid :
    Valid (picture 65534 1 0 0 []) ∧ Valid (picture 1 1 127 0 []) ∧ Valid (picture 2 2 0 65532 []) := by
  unfold Valid; decide

/-- The other clause of the raster commands: the two errors of `Validate`. -/
theorem witness_validate :
    validate (picture 65535 1 0 65535 []) = some .size ∧ validate (picture 0 1 40000 0 []) = some .dim ∧
    validate (picture 1 1 0 65536 []) = some .dim := by decide

/-- `TableOk` beside `Valid`, with the table not built. -/
theorem witness_table_and_valid : TableOk (picture 2 1 1 0 []) ∧ Valid (picture 2 1 1 0 []) :=
  ⟨fun h => absurd h (by decide), by unfold Valid; decide⟩

/-- ChunkEnvelopeLayout: no data. -/
theorem witness_chunk : typeIhdr.length = 4 ∧ ([] : List Byte).length < 2 ^ 32 := by decide

/-- EncpngEqualsItsParts: a sink that accepts the 83 bytes of the file. -/
theorem witness_compose :
    TableOk (picture 2 1 1 0 []) ∧ Valid (picture 2 1 1 0 []) ∧
      SinkAccepts (picture 2 1 1 0 []) (blockLen (dims (picture 2 1 1 0 [])) + 68) :=
  ⟨witness_table_and_valid.1, witness_table_and_valid.2, by unfold SinkAccepts; decide +kernel⟩

/-- EveryStepKeepsTheInvariants: a step from a state that meets the invariants. -/
theorem witness_invariants :
    CoreInv (host .reset (sinkOk 8 base)) ∧ ∃ t, step (host .reset (sinkOk 8 base)) = .next t :=
  ⟨{ base_coreInv with }, _, rfl⟩

/-- StepsStopOnlyOutsideMemory: a refused step. -/
theorem witness_refused : step (host (.rdmem 65536) base) = .refused .noSuchMemAddress := rfl

/-- CommandsLeaveOperandsAndMemoryAlone, EarlierResultsNeverMatter: a command that completes. -/
theorem witness_completes : ∃ t, exec .iend (sinkOk 12 base) = .next t := ⟨_, rfl⟩

/-- ErrorsBeforeTheWritePassChangeNothing: a command that raises `DIM`. -/
theorem witness_early_error : ∃ t, exec .pad base = .next t ∧ t.err ≠ .ok ∧ t.err ≠ .io := ⟨_, rfl, by decide, by decide⟩

/-- ErrorsEachCommandCanRaise: an error of each class. -/
theorem witness_errors :
    (∃ t, exec .be32 base = .next t ∧ t.err = .ok) ∧ (∃ t, exec .adler32 (spanState 65535 2 []) = .next t ∧ t.err = .addr) ∧
    (∃ t, exec .iend (sinkFailAt 11 base) = .next t ∧ t.err = .io) ∧
    (isRaster .zwrap = true ∧ ∃ t, exec .zwrap (picture 65535 1 0 0 []) = .next t ∧ t.err = .size) :=
  ⟨⟨_, rfl, by decide⟩, ⟨_, rfl, by decide⟩, ⟨_, rfl, by decide⟩, rfl, _, rfl, by decide⟩

/-- OnlyCrcCommandsBuildTheTable: the table is used; it is not; the checks fail. -/
theorem witness_table_use :
    TableOk base ∧ (usesTable .tblinit = true ∧ ∃ t, exec .tblinit base = .next t ∧ t.err = .ok) ∧
    (usesTable .be32 = false ∧ ∃ t, exec .be32 base = .next t) ∧
    (usesTable .ihdr = true ∧ ∃ t, exec .ihdr base = .next t ∧ t.err ≠ .ok ∧ t.err ≠ .io) :=
  ⟨base_tableOk, ⟨rfl, _, rfl, rfl⟩, ⟨rfl, _, rfl⟩, rfl, _, rfl, by decide, by decide⟩

/-- OnlyResetClearsTheTableFlag: `TV` stays, and `TV` is cleared by a reset. -/
theorem witness_table_flag :
    (∃ t, step (host (.rdreg .status) (buildTable base)) = .next t ∧ t.tv = true) ∧
    (∃ t, step (host .reset (buildTable base)) = .next t ∧ t.tv = false) ∧ (buildTable base).tv = true :=
  ⟨⟨_, rfl, rfl⟩, ⟨_, rfl, rfl⟩, rfl⟩

/-- TableFlagNeverChangesAResult: the table is not built before the command. -/
theorem witness_table_result : TableOk base ∧ base.tv = false ∧ ∃ t, exec .crc32 base = .next t := ⟨base_tableOk, rfl, _, rfl⟩

/-- OnlyTheNamedBytesOfMemMatter: memories that agree on the span, and on the raster, and differ after it. -/
theorem witness_other_bytes :
    (∃ t, exec .adler32 (spanState 0 1 (cells 0 [0x61])) = .next t) ∧
    (∀ k < (spanState 0 1 (cells 0 [0x61])).srcn.toNat,
      memByte (cells 0 [0x61, 0x62]) ((spanState 0 1 (cells 0 [0x61])).srca.toNat + k) =
        memByte (spanState 0 1 (cells 0 [0x61])).mem ((spanState 0 1 (cells 0 [0x61])).srca.toNat + k)) ∧
    (∃ t, exec .pad (picture 1 1 0 0 (cells 0 [0x61])) = .next t) ∧
    (∀ k < (picture 1 1 0 0 (cells 0 [0x61])).width.toNat * (picture 1 1 0 0 (cells 0 [0x61])).height.toNat,
      memByte (cells 0 [0x61, 0x62]) ((picture 1 1 0 0 (cells 0 [0x61])).rbase.toNat + k) =
        memByte (picture 1 1 0 0 (cells 0 [0x61])).mem ((picture 1 1 0 0 (cells 0 [0x61])).rbase.toNat + k)) :=
  ⟨⟨_, rfl⟩, by decide +kernel, ⟨_, rfl⟩, by decide +kernel⟩

end Sys2Proof.Tests
end

/-! PROOFS. The statements about the state (10_state.md). The meanings of the commands are said once, as one equation
(`exec_eq_outcome`): what a command's check is, which registers it computes, and how it ends. What a step can do is said once as
well (`transition_of_step`), and the whole-machine statements are read off these two. -/

namespace Sys2Proof.Machine

/-! ## Every command in one equation -/

/-- The check of a command, for the commands that have one (R119, R150). -/
def preCheck (i : Instr) (s : State) : Option ErrCode :=
  match i with
  | .crc32 | .adler32 => checkSpan s
  | .pad | .zwrap | .ihdr | .idat | .encpng => validate s
  | .tblinit | .be32 | .putbe32 | .sig | .iend => none

/-- The table the CRC engine computes with: what `EnsureTable` leaves in `TABLE` (R115). -/
def engineTable (s : State) : Vector Word 256 := if s.tv then s.table else builtTable

/-- The bytes whose CRC the command leaves in `CRC`, for the commands that compute one. -/
def crcInput (i : Instr) (s : State) : Option (List Byte) :=
  match i with
  | .crc32 => some (spanOf s)
  | .ihdr => some (typeIhdr ++ ihdrRecord (dims s))
  | .idat | .encpng => some (typeIdat ++ zlibOf (dims s) (rasterOf s))
  | .tblinit | .adler32 | .be32 | .putbe32 | .pad | .zwrap | .sig | .iend => none

/-- The bytes whose sums the command leaves in `S1`, `S2`, for the commands that compute them. -/
def adlerInput (i : Instr) (s : State) : Option (List Byte) :=
  match i with
  | .adler32 => some (spanOf s)
  | .zwrap | .idat | .encpng => some (scanlineBlock (dims s) (rasterOf s))
  | .tblinit | .crc32 | .be32 | .putbe32 | .pad | .sig | .ihdr | .iend => none

/-- The state after the compute phase of a command whose check passed. -/
def computed (i : Instr) (s : State) : State :=
  { s with
    cmd := encode i
    tv := usesTable i || s.tv
    table := bif usesTable i then engineTable s else s.table
    crc := (crcInput i s).elim s.crc (crcAccWith (engineTable s))
    s1 := (adlerInput i s).elim s.s1 fun bytes => BitVec.ofNat 16 (adlerAcc bytes).1
    s2 := (adlerInput i s).elim s.s2 fun bytes => BitVec.ofNat 16 (adlerAcc bytes).2 }

/-- How a command ends once its check has passed: with nothing more, with a word in `RES`, or with a write pass. -/
inductive Ending where
  | done
  | result (v : Word)
  | output (bytes : List Byte)

/-- The chunk whose CRC field the engine computed with the table given (R190, R197). -/
def chunkBy (table : Vector Word 256) (t d : List Byte) : List Byte :=
  chunkWith t d (crcFinal (crcAccWith table (t ++ d)))

/-- How each command ends, from the state it starts in. -/
def ending (i : Instr) (s : State) : Ending :=
  match i with
  | .tblinit => .done
  | .crc32 => .result (crcFinal (crcAccWith (engineTable s) (spanOf s)))
  | .adler32 => .result (adlerWord (computeAdler (spanOf s) s))
  | .be32 => .result (toBigEndian s.val)
  | .putbe32 => .output (be32 s.val)
  | .pad => .output (scanlineBlock (dims s) (rasterOf s))
  | .zwrap => .output (zlibOf (dims s) (rasterOf s))
  | .sig => .output sigBytes
  | .ihdr => .output (chunkBy (engineTable s) typeIhdr (ihdrRecord (dims s)))
  | .idat => .output (chunkBy (engineTable s) typeIdat (zlibOf (dims s) (rasterOf s)))
  | .iend => .output iendBytes
  | .encpng => .output (sigBytes ++ chunkBy (engineTable s) typeIhdr (ihdrRecord (dims s)) ++
      chunkBy (engineTable s) typeIdat (zlibOf (dims s) (rasterOf s)) ++ iendBytes)

/-- The last lines of a command, after its compute phase. -/
def Ending.finish (e : Ending) (s : State) : State :=
  match e with
  | .done => succeed s
  | .result v => succeed (setRes v s)
  | .output bytes => afterPass bytes (setRes (BitVec.ofNat 32 bytes.length) s)

/-- The state in which a command ends: the error of its check and nothing else, or its compute phase and its end. -/
def outcome (i : Instr) (s : State) : State :=
  (preCheck i s).elim ((ending i s).finish (computed i s)) (raiseErr · (startCommand i s))

theorem emit_eq_finish (bytes : List Byte) (s : State) : emit bytes s = (Ending.output bytes).finish s := emit_eq bytes s

/-- The frame of the checksum commands: the error of `CheckSpan`, or the effect on the span. -/
theorem spanCommand_eq_elim (i : Instr) (k : List Byte → State → State) (s : State) :
    spanCommand i k s =
      .next ((checkSpan s).elim (k (spanOf s) (startCommand i s)) (raiseErr · (startCommand i s))) := by
  cases h : checkSpan s with
  | none => exact (spanCommand_eq i k s).1 ((checkSpan_eq_none s).1 h)
  | some e => rw [spanCommand, h]; rfl

/-- The frame of the commands that read the raster: the error of `Validate`, or the effect on the raster. -/
theorem rasterCommand_eq_elim (i : Instr) (k : List Byte → State → State) (s : State) :
    rasterCommand i k s =
      .next ((validate s).elim (k (rasterOf s) (startCommand i s)) (raiseErr · (startCommand i s))) := by
  cases h : validate s with
  | none => exact (rasterCommand_eq i k s).1 ((validate_eq_none s).1 h)
  | some e => rw [rasterCommand, h]; rfl

theorem preCheck_of_isRaster {i : Instr} (h : isRaster i = true) (s : State) : preCheck i s = validate s := by
  cases i with
  | tblinit | crc32 | adler32 | be32 | putbe32 | sig | iend => cases h
  | pad | zwrap | ihdr | idat | encpng => rfl

/-- A raster command that reads the raster ends in its `outcome` if its effect on the raster is its compute phase and its end. -/
theorem rasterCommand_eq_outcome {i : Instr} {k : List Byte → State → State} {s : State} (hi : isRaster i = true)
    (hk : k (rasterOf s) (startCommand i s) = (ending i s).finish (computed i s)) :
    rasterCommand i k s = .next (outcome i s) := by
  rw [rasterCommand_eq_elim, hk, outcome, preCheck_of_isRaster hi]

/-- IHDR, which reads no byte of MEM: the error of `Validate`, or its compute phase and write pass. -/
theorem ihdrCommand_eq_elim (s : State) :
    execIhdr s =
      .next ((validate s).elim
        (emit (framed typeIhdr (ihdrRecord (dims s)) (ihdrCompute (startCommand .ihdr s)))
          (ihdrCompute (startCommand .ihdr s)))
        (raiseErr · (startCommand .ihdr s))) := by
  cases h : validate s with
  | none => rw [execIhdr, h]; rfl
  | some e => rw [execIhdr, h]; rfl

/-- The compute phase of CRC32 and IHDR, and the second one of IDAT. -/
theorem computeCrc_eq_engineTable (bytes : List Byte) (s : State) :
    computeCrc bytes s =
      { s with tv := true, table := engineTable s, crc := crcAccWith (engineTable s) bytes } := computeCrc_eq bytes s

/-- Every command, from every state, ends in its `outcome`. -/
theorem exec_eq_outcome (i : Instr) (s : State) : exec i s = .next (outcome i s) := by
  cases i with
  | tblinit => exact congrArg (fun t => Host.Outcome.next (succeed t)) (ensureTable_eq (startCommand .tblinit s))
  | crc32 =>
    refine (spanCommand_eq_elim ..).trans ?_
    simp only [crcOfSpan, computeCrc_eq_engineTable]
    rfl
  | adler32 => exact spanCommand_eq_elim ..
  | be32 => rfl
  | putbe32 => exact congrArg _ (emit_eq_finish ..)
  | pad => exact rasterCommand_eq_outcome rfl (emit_eq_finish ..)
  | zwrap => exact rasterCommand_eq_outcome rfl (emit_eq_finish ..)
  | sig => exact congrArg _ (emit_eq_finish ..)
  | ihdr =>
    refine (ihdrCommand_eq_elim s).trans ?_
    simp only [emit_eq_finish, ihdrCompute, computeCrc_eq_engineTable]
    rfl
  | idat =>
    refine rasterCommand_eq_outcome rfl ?_
    simp only [emit_eq_finish, idatCompute, computeCrc_eq_engineTable]
    rfl
  | iend => exact congrArg _ (emit_eq_finish ..)
  | encpng =>
    refine rasterCommand_eq_outcome rfl ?_
    simp only [encodeFile, emit_eq_finish, idatCompute, ihdrCompute, computeCrc_eq_engineTable]
    rfl

/-- What a command that answers a next state has done: it ended with the error of its check and nothing else, or its check
passed and it computed and ended. -/
theorem exec_cases {i : Instr} {s t : State} (h : exec i s = .next t) :
    (∃ e, preCheck i s = some e ∧ t = raiseErr e (startCommand i s)) ∨
    (preCheck i s = none ∧ t = (ending i s).finish (computed i s)) := by
  rw [exec_eq_outcome] at h
  cases h
  unfold outcome
  cases preCheck i s with
  | none => exact .inr ⟨rfl, rfl⟩
  | some e => exact .inl ⟨e, rfl, rfl⟩

/-! ## The check, the output and the sums of a command -/

/-- `CheckSpan` raises no error but `ADDR` (R119). -/
theorem checkSpan_error {s : State} {e : ErrCode} (h : checkSpan s = some e) : e = .addr := by
  have hout : ¬ SpanInside s := fun hin => by simp [(checkSpan_eq_none s).2 hin] at h
  rw [checkSpan_eq_addr hout] at h
  exact (Option.some.inj h).symm

/-- The checks raise `ADDR`, `DIM` and `SIZE`, never `IO` (R119, R150). -/
theorem preCheck_error {i : Instr} {s : State} {e : ErrCode} (h : preCheck i s = some e) :
    e = .addr ∨ e = .dim ∨ e = .size := by
  cases i with
  | tblinit | be32 | putbe32 | sig | iend => cases h
  | crc32 | adler32 => exact .inl (checkSpan_error h)
  | pad | zwrap | ihdr | idat | encpng => exact .inr (validate_error h)

theorem ending_of_isEmitting {i : Instr} (h : isEmitting i = true) (s : State) : ∃ bytes, ending i s = .output bytes := by
  cases i with
  | tblinit | crc32 | adler32 | be32 => cases h
  | putbe32 | pad | zwrap | sig | ihdr | idat | iend | encpng => exact ⟨_, rfl⟩

@[simp] theorem chunkBy_length (table : Vector Word 256) (t d : List Byte) :
    (chunkBy table t d).length = t.length + d.length + 8 := chunkWith_length ..

/-- No write pass is longer than the largest PNG file (R41 (f), R206). -/
theorem output_length_le {i : Instr} {s : State} {bytes : List Byte} (hcheck : preCheck i s = none)
    (hend : ending i s = .output bytes) : bytes.length ≤ 65603 := by
  have hlen (hr : isRaster i = true) : blockLen (dims s) ≤ 65535 := by
    rw [preCheck_of_isRaster hr] at hcheck
    obtain ⟨-, -, hblock, -⟩ := (validate_eq_none s).1 hcheck
    exact hblock
  cases i with
  | tblinit | crc32 | adler32 | be32 => cases hend
  | putbe32 | sig | ihdr | iend => cases hend; simp
  | pad | zwrap | idat | encpng =>
    have := hlen rfl
    cases hend
    simp
    omega

/-- The sums of R120 are reduced, so a 16-bit register holds them reduced. -/
theorem adlerAcc_toNat_lt (bytes : List Byte) :
    (BitVec.ofNat 16 (adlerAcc bytes).1).toNat < 65521 ∧ (BitVec.ofNat 16 (adlerAcc bytes).2).toNat < 65521 := by
  obtain ⟨h1, h2⟩ := foldl_adlerStep_lt bytes (p := (1, 0)) (by decide)
  exact ⟨(Nat.mod_le _ _).trans_lt h1, (Nat.mod_le _ _).trans_lt h2⟩

/-! ## The end of a command -/

/-- A write pass counted by its bytes: `POS` and SINK agree, with each other and, on success, with `RES` (R33, R253). -/
theorem finish_output_counts {bytes : List Byte} (hlen : bytes.length < 2 ^ 32) {s t : State}
    (ht : t = (Ending.output bytes).finish s) :
    (t.err = .ok → t.pos = t.res ∧ t.sink.length = s.sink.length + t.res.toNat) ∧
    (t.err = .io → t.pos.toNat < t.res.toNat ∧ t.sink.length = s.sink.length + t.pos.toNat) := by
  have hle := acceptedCount_le (setRes (BitVec.ofNat 32 bytes.length) s) bytes.length
  subst ht
  simp only [Ending.finish, afterPass, setRes_res, setRes_sink, List.length_append, List.length_take, BitVec.toNat_ofNat,
    Nat.mod_eq_of_lt hlen]
  generalize acceptedCount _ bytes.length = n at hle ⊢
  rw [Nat.mod_eq_of_lt (by omega), Nat.min_eq_left hle]
  by_cases hn : n = bytes.length
  · simp [hn]
  · simp only [if_neg hn, reduceCtorEq, false_implies, true_and, and_true, true_implies]
    omega

/-- A command whose check passed ends with `ERR` 0 or, from its write pass, `IO` (R67, R239). -/
theorem finish_err (e : Ending) (s : State) : (e.finish s).err = .ok ∨ (e.finish s).err = .io := by
  cases e with
  | done | result v => exact .inl rfl
  | output bytes => exact ite_eq_or_eq _ ErrCode.ok ErrCode.io

theorem finish_tv (e : Ending) (s : State) : (e.finish s).tv = s.tv := by cases e <;> rfl

/-! ## The frame of a command -/

/-- What a command leaves alone: the operand registers, `TBLIDX`, MEM and the host's fields; of SINK it keeps every byte. -/
structure CommandFrame (s t : State) : Prop where
  width : t.width = s.width
  height : t.height = s.height
  border : t.border = s.border
  rbase : t.rbase = s.rbase
  srca : t.srca = s.srca
  srcn : t.srcn = s.srcn
  val : t.val = s.val
  tblidx : t.tblidx = s.tblidx
  mem : t.mem = s.mem
  memSize : t.memSize = s.memSize
  pending : t.pending = s.pending
  reply : t.reply = s.reply
  sink : ∃ bytes, t.sink = s.sink ++ bytes

theorem raiseErr_startCommand_frame (e : ErrCode) (i : Instr) (s : State) :
    CommandFrame s (raiseErr e (startCommand i s)) := by
  constructor
  case sink => exact ⟨[], (List.append_nil _).symm⟩
  all_goals rfl

theorem finish_computed_frame (e : Ending) (i : Instr) (s : State) : CommandFrame s (e.finish (computed i s)) := by
  cases e <;> constructor
  case done.sink | result.sink => exact ⟨[], (List.append_nil _).symm⟩
  case output.sink => exact ⟨_, rfl⟩
  all_goals rfl

/-- Every command has the frame. -/
theorem exec_frame {i : Instr} {s t : State} (h : exec i s = .next t) : CommandFrame s t := by
  obtain ⟨e, -, rfl⟩ | ⟨-, rfl⟩ := exec_cases h
  · exact raiseErr_startCommand_frame e i s
  · exact finish_computed_frame _ i s

/-! ## What a command keeps -/

theorem computed_keeps_coreInv {s : State} (hs : CoreInv s) (i : Instr) : CoreInv (computed i s) where
  s1_lt := by
    show ((adlerInput i s).elim s.s1 _).toNat < 65521
    cases adlerInput i s with
    | none => exact hs.s1_lt
    | some bytes => exact (adlerAcc_toNat_lt bytes).1
  s2_lt := by
    show ((adlerInput i s).elim s.s2 _).toNat < 65521
    cases adlerInput i s with
    | none => exact hs.s2_lt
    | some bytes => exact (adlerAcc_toNat_lt bytes).2
  tableOk := by
    have hengine : engineTable s = builtTable := by
      cases htv : s.tv with
      | false => simp [engineTable, htv]
      | true => simpa [engineTable, htv] using hs.tableOk htv
    intro htv
    show (bif usesTable i then engineTable s else s.table) = builtTable
    cases huse : usesTable i with
    | false => exact hs.tableOk (by simpa [computed, huse] using htv)
    | true => exact hengine
  pos_le := hs.pos_le
  memWf := hs.memWf
  memInside := hs.memInside
  memSize_le := hs.memSize_le

theorem finish_keeps_coreInv {s : State} (hs : CoreInv s) {e : Ending}
    (hlen : ∀ bytes, e = .output bytes → bytes.length ≤ 65603) : CoreInv (e.finish s) := by
  cases e with
  | done | result v => exact { hs with }
  | output bytes =>
    have hpos : ((Ending.output bytes).finish s).pos.toNat ≤ 65603 :=
      (Nat.mod_le _ _).trans ((acceptedCount_le _ _).trans (hlen bytes rfl))
    exact { hs with pos_le := hpos }

/-- Every command keeps the invariants (R41). -/
theorem exec_keeps_coreInv {i : Instr} {s t : State} (h : exec i s = .next t) (hs : CoreInv s) : CoreInv t := by
  obtain ⟨e, -, rfl⟩ | ⟨hcheck, rfl⟩ := exec_cases h
  · exact { hs with }
  · exact finish_keeps_coreInv (computed_keeps_coreInv hs i) fun _ hend => output_length_le hcheck hend

/-- No command clears `TV` (R39). -/
theorem exec_keeps_tv {i : Instr} {s t : State} (h : exec i s = .next t) (hs : s.tv = true) : t.tv = true := by
  obtain ⟨e, -, rfl⟩ | ⟨-, rfl⟩ := exec_cases h
  · exact hs
  · simp [finish_tv, computed, hs]

/-! ## What a step can do -/

/-- What every transaction leaves alone but a command, `WRMEM` and `RESET`: all but `CMD`, `ERR`, the operand registers, `TBLIDX`
and the fields that stand for the host. -/
structure QuietStep (s t : State) : Prop where
  tv : t.tv = s.tv
  table : t.table = s.table
  res : t.res = s.res
  pos : t.pos = s.pos
  crc : t.crc = s.crc
  s1 : t.s1 = s.s1
  s2 : t.s2 = s.s2
  mem : t.mem = s.mem
  memSize : t.memSize = s.memSize
  sink : t.sink = s.sink

/-- The four kinds of step. -/
inductive Transition (s t : State) : Prop where
  | command (w : Word) (i : Instr) (rest : List Transaction) (pending : s.pending = .wrreg .cmd w :: rest)
      (decoded : decode w = .ok i) (run : exec i { s with pending := rest, reply := .nothing } = .next t)
  | wrmem (a : Nat) (b : Byte) (rest : List Transaction) (pending : s.pending = .wrmem a b :: rest) (inside : a < s.memSize)
      (eq : t = { s with mem := memSet s.mem a b, pending := rest, reply := .nothing })
  | reset (rest : List Transaction) (pending : s.pending = .reset :: rest) (eq : t = resetCore { s with pending := rest })
  | quiet (kept : QuietStep s t)

/-- A read changes nothing but the number of the next draw (R231). -/
theorem readReg_snd (r : Reg) (s : State) : ∃ n, (readReg r s).2 = { s with draws := n } := by
  cases r
  case tbldat =>
    show ∃ n, (readTbldat s).2 = _
    unfold readTbldat
    split
    · exact ⟨s.draws, rfl⟩
    · exact ⟨s.draws + 1, rfl⟩
  all_goals exact ⟨s.draws, rfl⟩

/-- An issued word runs its command, or raises `ILLEGAL` with no other effect (R235, R256). -/
theorem issue_cases {w : Word} {s t : State} (h : issue w s = .next t) :
    (∃ i, decode w = .ok i ∧ exec i s = .next t) ∨ t = raiseErr .illegal { s with cmd := w } := by
  unfold issue at h
  split at h
  · next i hi => exact .inl ⟨i, hi, h⟩
  · cases h
    exact .inr rfl

theorem transition_of_wrreg {r : Reg} {v : Word} {rest : List Transaction} {s t : State}
    (hp : s.pending = .wrreg r v :: rest)
    (h : writeReg r v { s with pending := rest, reply := .nothing } = .next t) : Transition s t := by
  cases r
  case cmd =>
    obtain ⟨i, hi, hrun⟩ | rfl := issue_cases h
    · exact .command v i rest hp hi hrun
    · exact .quiet (by constructor <;> rfl)
  all_goals
    cases h
    exact .quiet (by constructor <;> rfl)

/-- A memory transaction that answers a next state was inside MEM (R233, R236). -/
theorem next_of_ite {inside : Prop} [Decidable inside] {u t : State} {r : Refusal}
    (h : (if inside then .next u else .refused r : Result) = .next t) : inside ∧ t = u := by
  by_cases hin : inside
  · rw [if_pos hin] at h
    cases h
    exact ⟨hin, rfl⟩
  · rw [if_neg hin] at h
    cases h

/-- Every step is of one of the four kinds. -/
theorem transition_of_step {s t : State} (h : step s = .next t) : Transition s t := by
  unfold step hostStep at h
  split at h
  · cases h
    exact .quiet (by constructor <;> rfl)
  · next tr rest hp =>
    cases tr with
    | wrreg r v => exact transition_of_wrreg hp h
    | rdreg r =>
      obtain ⟨n, hn⟩ := readReg_snd r { s with pending := rest }
      cases h
      rw [hn]
      exact .quiet (by constructor <;> rfl)
    | wrmem a b =>
      obtain ⟨ha, rfl⟩ := next_of_ite h
      exact .wrmem a b rest hp ha rfl
    | rdmem a =>
      obtain ⟨-, rfl⟩ := next_of_ite h
      exact .quiet (by constructor <;> rfl)
    | reset =>
      cases h
      exact .reset rest hp rfl

theorem QuietStep.keeps_coreInv {s t : State} (h : QuietStep s t) (hs : CoreInv s) : CoreInv t where
  s1_lt := h.s1 ▸ hs.s1_lt
  s2_lt := h.s2 ▸ hs.s2_lt
  tableOk htv := h.table.trans (hs.tableOk (h.tv ▸ htv))
  pos_le := h.pos ▸ hs.pos_le
  memWf := h.mem ▸ hs.memWf
  memInside := by rw [h.mem, h.memSize]; exact hs.memInside
  memSize_le := h.memSize ▸ hs.memSize_le

/-- A write inside MEM keeps MEM canonical and inside its size. -/
theorem wrmem_keeps_coreInv {s : State} (hs : CoreInv s) {a : Nat} (ha : a < s.memSize) (b : Byte) :
    CoreInv { s with mem := memSet s.mem a b } :=
  { hs with
    memWf := memSet_wf hs.memWf a b
    memInside := fun c hc => by
      obtain ⟨rfl, -⟩ | hc := mem_memSet hc
      · exact ha
      · exact hs.memInside c hc }

/-- A reset that keeps MEM, of a size R60 allows, establishes the other invariants (R43, R234). -/
theorem resetCore_keeps_coreInv {s : State} (hs : CoreInv s) : CoreInv (resetCore s) :=
  { hs with
    s1_lt := show (0 : Half).toNat < 65521 by decide
    s2_lt := show (0 : Half).toNat < 65521 by decide
    tableOk := fun h => absurd h Bool.false_ne_true
    pos_le := show (0 : Word).toNat ≤ 65603 by decide }

/-- Settles O46: each of the four kinds of step keeps the invariants; a command because its sums are reduced, its table is the
built one and its write pass is no longer than the largest file. -/
theorem everyStepKeepsTheInvariants : Obligations.EveryStepKeepsTheInvariants := by
  intro s t hs h
  cases transition_of_step h with
  | command w i rest _ _ run => exact exec_keeps_coreInv run { hs with }
  | wrmem a b rest _ inside eq => exact eq ▸ { wrmem_keeps_coreInv hs inside b with }
  | reset rest _ eq => exact eq ▸ resetCore_keeps_coreInv { hs with }
  | quiet kept => exact kept.keeps_coreInv hs

/-- Settles O45: the registers are 0, the table is not built, and nothing is listed in MEM. -/
theorem startStateMeetsTheInvariants : Obligations.StartStateMeetsTheInvariants where
  s1_lt := by decide
  s2_lt := by decide
  tableOk h := absurd h Bool.false_ne_true
  pos_le := by decide
  memWf := ⟨.nil, fun _ hc => absurd hc List.not_mem_nil⟩
  memInside _ hc := absurd hc List.not_mem_nil
  memSize_le := Nat.le_of_lt_succ Config.memSize.isLt

/-- Settles O53: of the four kinds of step only the reset clears the flag. -/
theorem onlyResetClearsTheTableFlag : Obligations.OnlyResetClearsTheTableFlag := by
  intro s t h htv
  cases transition_of_step h with
  | command w i rest _ _ run => exact .inl (exec_keeps_tv run htv)
  | wrmem a b rest _ _ eq => exact .inl (eq ▸ htv)
  | reset rest pending _ => exact .inr ⟨rest, pending⟩
  | quiet kept => exact .inl (kept.tv.trans htv)

/-! ## What the host finds after a command -/

/-- Settles O28: an emitting command ends in a write pass of at most 65603 bytes, so `RES` and `POS` do not wrap; an error of its
check is neither 0 nor `IO`. -/
theorem posCountsAcceptedBytes : Obligations.PosCountsAcceptedBytes := by
  intro i s t hemit h
  obtain ⟨e, he, rfl⟩ | ⟨hcheck, ht⟩ := exec_cases h
  · obtain rfl | rfl | rfl := preCheck_error he <;> simp
  · obtain ⟨bytes, hend⟩ := ending_of_isEmitting hemit s
    rw [hend] at ht
    have hcounts := finish_output_counts ((output_length_le hcheck hend).trans_lt (by decide)) ht
    exact hcounts

/-- Settles O49, from the frame. -/
theorem commandsLeaveOperandsAndMemoryAlone : Obligations.CommandsLeaveOperandsAndMemoryAlone := by
  intro i s t h
  have f := exec_frame h
  exact ⟨f.width, f.height, f.border, f.rbase, f.srca, f.srcn, f.val, f.tblidx, f.mem, f.memSize, f.pending, f.reply, f.sink⟩

/-- Settles O51: an error is that of the command's check, or `IO` from the write pass of a command that has one. -/
theorem errorsEachCommandCanRaise : Obligations.ErrorsEachCommandCanRaise := by
  intro i s t h
  obtain ⟨e, he, rfl⟩ | ⟨-, rfl⟩ := exec_cases h
  · simp only [raiseErr_err]
    refine ⟨?_, ?_, ?_, fun hr => ?_⟩
    · rintro (rfl | rfl) <;> cases he
    · rintro (rfl | rfl) <;> exact .inr (checkSpan_error he)
    · rintro (rfl | rfl | rfl) <;> cases he
    · rw [preCheck_of_isRaster hr] at he
      exact .inr (.inr (validate_error he).symm)
  · have hend := finish_err (ending i s) (computed i s)
    refine ⟨?_, ?_, fun _ => hend, fun _ => hend.imp_right .inl⟩
    · rintro (rfl | rfl) <;> rfl
    · rintro (rfl | rfl) <;> exact .inl rfl

/-! ## Results of earlier commands -/

/-- `s` with other values in the registers that commands leave results in. -/
def withResults (s : State) (c : Word) (e : ErrCode) (r p k : Word) (x y : Half) : State :=
  { s with cmd := c, err := e, res := r, pos := p, crc := k, s1 := x, s2 := y }

section
variable (i : Instr) (s : State) (c : Word) (e : ErrCode) (r p k : Word) (x y : Half)

theorem preCheck_withResults : preCheck i (withResults s c e r p k x y) = preCheck i s := by cases i <;> rfl

theorem crcInput_withResults : crcInput i (withResults s c e r p k x y) = crcInput i s := by cases i <;> rfl

theorem adlerInput_withResults : adlerInput i (withResults s c e r p k x y) = adlerInput i s := by cases i <;> rfl

theorem ending_withResults : ending i (withResults s c e r p k x y) = ending i s := by cases i <;> rfl

/-- The compute phase writes the other values over or leaves them. -/
theorem computed_withResults :
    computed i (withResults s c e r p k x y) =
      { computed i s with
        err := e, res := r, pos := p
        crc := (crcInput i s).elim k (crcAccWith (engineTable s))
        s1 := (adlerInput i s).elim x fun bytes => BitVec.ofNat 16 (adlerAcc bytes).1
        s2 := (adlerInput i s).elim y fun bytes => BitVec.ofNat 16 (adlerAcc bytes).2 } := by
  unfold computed
  rw [crcInput_withResults, adlerInput_withResults]
  rfl

end

/-- A register that a command writes if it has an input for it ends the same from both values, or keeps both. -/
theorem elim_eq_or_kept {α β : Type} (input : Option α) (a b : β) (f : α → β) :
    input.elim a f = input.elim b f ∨ (input.elim a f = a ∧ input.elim b f = b) := by
  cases input with
  | none => exact .inr ⟨rfl, rfl⟩
  | some bytes => exact .inl rfl

/-- Settles O55: check, inputs and end of a command do not look at the result registers, and its compute phase writes them over
or leaves them. -/
theorem earlierResultsNeverMatter : Obligations.EarlierResultsNeverMatter := by
  intro i s t c e r p k x y h
  rw [exec_eq_outcome] at h
  cases h
  refine ⟨outcome i (withResults s c e r p k x y), exec_eq_outcome .., ?_⟩
  unfold outcome
  rw [preCheck_withResults, ending_withResults, computed_withResults]
  cases preCheck i s with
  | some err =>
    exact ⟨rfl, rfl, rfl, rfl, rfl, rfl, rfl,
      .inr ⟨rfl, rfl⟩, .inr ⟨rfl, rfl⟩, .inr ⟨rfl, rfl⟩, .inr ⟨rfl, rfl⟩, .inr ⟨rfl, rfl⟩⟩
  | none =>
    have hcrc := elim_eq_or_kept (crcInput i s) k s.crc (crcAccWith (engineTable s))
    have hs1 := elim_eq_or_kept (adlerInput i s) x s.s1 fun bytes => BitVec.ofNat 16 (adlerAcc bytes).1
    have hs2 := elim_eq_or_kept (adlerInput i s) y s.s2 fun bytes => BitVec.ofNat 16 (adlerAcc bytes).2
    cases ending i s with
    | done => exact ⟨rfl, rfl, rfl, rfl, rfl, rfl, rfl, .inr ⟨rfl, rfl⟩, .inr ⟨rfl, rfl⟩, hcrc, hs1, hs2⟩
    | result v => exact ⟨rfl, rfl, rfl, rfl, rfl, rfl, rfl, .inl rfl, .inr ⟨rfl, rfl⟩, hcrc, hs1, hs2⟩
    | output bytes => exact ⟨rfl, rfl, rfl, rfl, rfl, rfl, rfl, .inl rfl, .inl rfl, hcrc, hs1, hs2⟩

/-! ## The register map and what registers read as -/

/-- The four fields of the `STATUS` word side by side, as a number. -/
theorem statusWord_toNat (s : State) : (statusWord s).toNat = (errBits s.err).toNat * 256 + s.tv.toNat := by
  have hfields : ∀ (c : BitVec 4) (b : Bool),
      ((0 : BitVec 20) ++ c ++ (0 : BitVec 7) ++ BitVec.ofBool b).toNat = c.toNat * 256 + b.toNat := by decide
  exact hfields _ _

theorem statusWord_eq_zero {s : State} (herr : s.err = .ok) (htv : s.tv = false) : statusWord s = 0 := by
  rw [statusWord, herr, htv]
  rfl

theorem adlerWord_eq_zero {s : State} (h1 : s.s1 = 0) (h2 : s.s2 = 0) : adlerWord s = 0 := by
  rw [adlerWord, h1, h2]
  rfl

/-- A register read as a step (R231). -/
theorem step_rdreg {s : State} {r : Reg} {rest : List Transaction} (h : s.pending = .rdreg r :: rest) :
    step s = .next (setReply (.word (readReg r { s with pending := rest }).1) (readReg r { s with pending := rest }).2) := by
  rw [step, hostStep, h]
  rfl

/-- In the start state every register but `TBLDAT` reads 0 and is left alone. -/
theorem readReg_reset {r : Reg} (hr : r ≠ .tbldat) (rest : List Transaction) :
    readReg r { State.reset with pending := rest } = (0, { State.reset with pending := rest }) := by
  cases r
  case tbldat => exact absurd rfl hr
  case status => exact Prod.ext (statusWord_eq_zero rfl rfl) rfl
  case adler => exact Prod.ext (adlerWord_eq_zero rfl rfl) rfl
  all_goals rfl

/-- Settles O8: the step is a read of the start state. -/
theorem registersReadZeroAfterReset : Obligations.RegistersReadZeroAfterReset := by
  intro r rest hr
  rw [step_rdreg rfl]
  exact congrArg (fun a => Host.Outcome.next (setReply (.word a.1) a.2)) (readReg_reset hr rest)

/-- Settles O9: the word is the number of its fields, and a flag is 0 or 1. -/
theorem statusWordHasItsFields : Obligations.StatusWordHasItsFields := by
  refine ⟨fun s => ?_, rfl, rfl, rfl, rfl, rfl, rfl⟩
  rw [statusWord_toNat]
  cases s.tv <;> rfl

theorem regAtIndex_regIndex (r : Reg) : regAtIndex (regIndex r) = some r := by cases r <;> rfl

/-- The registers stand in `allRegs` in the order of their indices (R20). -/
theorem allRegs_map_regIndex : allRegs.map regIndex = List.range 16 := rfl

theorem regAtIndex_eq_some (n : Nat) (r : Reg) : regAtIndex n = some r ↔ regIndex r = n := by
  constructor
  · intro h
    have hrange : (List.range 16)[n]? = some (regIndex r) := by
      rw [← allRegs_map_regIndex, List.getElem?_map]
      exact congrArg (Option.map regIndex) h
    obtain ⟨_, hn⟩ := List.getElem?_eq_some_iff.1 hrange
    simpa using hn.symm
  · rintro rfl
    exact regAtIndex_regIndex r

theorem regAtOffset_eq_some (off : Nat) (r : Reg) : regAtOffset off = some r ↔ off = 4 * regIndex r := by
  unfold regAtOffset
  split
  · rw [regAtIndex_eq_some]
    omega
  · simp only [reduceCtorEq, false_iff]
    omega

/-- Settles O10: `regAtIndex` and `regIndex` are inverse, an offset is four times an index, and there are sixteen registers. -/
theorem registerMapIsExact : Obligations.RegisterMapIsExact :=
  ⟨regAtIndex_eq_some, regAtOffset_eq_some, fun _ h => List.getElem?_eq_none h⟩

end Sys2Proof.Machine


/-! PROOFS. The statements about MEM and the sink (20_memory.md). The write pass is `writePass_eq`; what MEM a command sees is
read off `exec_eq_outcome`, whose parts look at MEM only through `rasterOf` and `spanOf`. -/

namespace Sys2Proof.Machine

/-! ## The write pass -/

/-- Settles O27: the number is that of the bytes before the first `fail`, and the pass is `afterPass`. -/
theorem writePassStopsAtTheFirstRefusal : Obligations.WritePassStopsAtTheFirstRefusal := by
  intro bytes s
  have hle := acceptedCount_le s bytes.length
  refine ⟨acceptedCount s bytes.length, hle, fun _ => answerAt_of_lt, answerAt_acceptedCount, ?_⟩
  rw [writePass_eq, afterPass, answersUsed]
  obtain hlt | heq := hle.lt_or_eq
  · simp only [hlt, hlt.ne, if_true, if_false]
  · simp only [heq, lt_irrefl, if_true, if_false]

/-! ## Where a step stops -/

/-- Every issued word, command or not, ends in a next state. -/
theorem issue_completes (w : Word) (s : State) : ∃ t, issue w s = .next t := by
  unfold issue
  split
  · exact ⟨_, exec_eq_outcome ..⟩
  · exact ⟨_, rfl⟩

theorem writeReg_completes (r : Reg) (v : Word) (s : State) : ∃ t, writeReg r v s = .next t := by
  cases r
  case cmd => exact issue_completes v s
  all_goals exact ⟨_, rfl⟩

/-- The next transaction is a memory transaction at or above `MEM_SIZE` (R233, R236). -/
def PendingOutsideMem (s : State) : Prop :=
  ∃ a rest, s.memSize ≤ a ∧ (s.pending = .rdmem a :: rest ∨ ∃ b, s.pending = .wrmem a b :: rest)

/-- A step answers a next state, or it is refused for a memory transaction outside MEM. -/
theorem step_completes_or_outside (s : State) :
    (∃ t, step s = .next t) ∨ (step s = .refused .noSuchMemAddress ∧ PendingOutsideMem s) := by
  unfold step hostStep
  split
  · exact .inl ⟨_, rfl⟩
  · next tr rest hp =>
    cases tr with
    | wrreg r v => exact .inl (writeReg_completes ..)
    | rdreg r => exact .inl ⟨_, rfl⟩
    | wrmem a b =>
      obtain hin | hout := Nat.lt_or_ge a s.memSize
      · exact .inl ⟨_, if_pos hin⟩
      · exact .inr ⟨if_neg hout.not_gt, a, rest, hout, .inr ⟨b, hp⟩⟩
    | rdmem a =>
      obtain hin | hout := Nat.lt_or_ge a s.memSize
      · exact .inl ⟨_, if_pos hin⟩
      · exact .inr ⟨if_neg hout.not_gt, a, rest, hout, .inl hp⟩
    | reset => exact .inl ⟨_, rfl⟩

/-- Settles O48: a step that answers no next state is refused, and its transaction was outside MEM. -/
theorem stepsStopOnlyOutsideMemory : Obligations.StepsStopOnlyOutsideMemory := by
  intro s
  obtain ⟨t, ht⟩ | ⟨hrefused, hout⟩ := step_completes_or_outside s
  · exact ⟨fun f hf => by simp [ht] at hf, fun r hr => by simp [ht] at hr⟩
  · exact ⟨fun f hf => by simp [hrefused] at hf, fun _ _ => hout⟩

/-! ## The bytes of MEM a command sees -/

/-- `s` with another MEM. -/
def withMem (s : State) (m : Memory) : State := { s with mem := m }

/-- Two memories that agree on a range hold the same bytes there (R62). -/
theorem memSpan_withMem {s : State} {m : Memory} {a n : Nat}
    (h : ∀ k < n, memByte m (a + k) = memByte s.mem (a + k)) : memSpan (withMem s m) a n = memSpan s a n :=
  List.map_congr_left fun k hk => h k (List.mem_range.1 hk)

/-- With the other MEM the command reads the same bytes: the raster for the four commands that read it (R155 (e)), the span for
the two checksum commands (R241). -/
structure SameReads (i : Instr) (s : State) (m : Memory) : Prop where
  raster : i = .pad ∨ i = .zwrap ∨ i = .idat ∨ i = .encpng → rasterOf (withMem s m) = rasterOf s
  span : i = .crc32 ∨ i = .adler32 → spanOf (withMem s m) = spanOf s

section
variable {i : Instr} {s : State} {m : Memory}

theorem preCheck_withMem : preCheck i (withMem s m) = preCheck i s := by cases i <;> rfl

theorem crcInput_withMem (h : SameReads i s m) : crcInput i (withMem s m) = crcInput i s := by
  cases i with
  | crc32 => rw [crcInput, h.span (by simp)]; rfl
  | idat | encpng => rw [crcInput, h.raster (by simp)]; rfl
  | tblinit | adler32 | be32 | putbe32 | pad | zwrap | sig | ihdr | iend => rfl

theorem adlerInput_withMem (h : SameReads i s m) : adlerInput i (withMem s m) = adlerInput i s := by
  cases i with
  | adler32 => rw [adlerInput, h.span (by simp)]; rfl
  | zwrap | idat | encpng => rw [adlerInput, h.raster (by simp)]; rfl
  | tblinit | crc32 | be32 | putbe32 | pad | sig | ihdr | iend => rfl

theorem ending_withMem (h : SameReads i s m) : ending i (withMem s m) = ending i s := by
  cases i with
  | crc32 | adler32 => rw [ending, h.span (by simp)]; rfl
  | pad | zwrap | idat | encpng => rw [ending, h.raster (by simp)]; rfl
  | tblinit | be32 | putbe32 | sig | ihdr | iend => rfl

theorem computed_withMem (h : SameReads i s m) : computed i (withMem s m) = withMem (computed i s) m := by
  unfold computed
  rw [crcInput_withMem h, adlerInput_withMem h]
  rfl

/-- The last lines of a command neither read nor write MEM. -/
theorem finish_withMem (e : Ending) : e.finish (withMem s m) = withMem (e.finish s) m := by cases e <;> rfl

theorem outcome_withMem (h : SameReads i s m) : outcome i (withMem s m) = withMem (outcome i s) m := by
  unfold outcome
  rw [preCheck_withMem, ending_withMem h, computed_withMem h, finish_withMem]
  cases preCheck i s <;> rfl

end

/-- Settles O56: the hypotheses say that the command reads the same raster or span, and its outcome sees MEM through these only. -/
theorem onlyTheNamedBytesOfMemMatter : Obligations.OnlyTheNamedBytesOfMemMatter := by
  intro i s t m h hraster hspan
  have hreads : SameReads i s m := ⟨fun hi => memSpan_withMem (hraster hi), fun hi => memSpan_withMem (hspan hi)⟩
  rw [exec_eq_outcome] at h
  cases h
  exact (exec_eq_outcome ..).trans (congrArg _ (outcome_withMem hreads))

end Sys2Proof.Machine


/-! PROOFS. The statements about encoding and the script (30_encoding.md). A word is its two fields (`word_ext`); both maps of
R92 are inverse (`ofOpcode_eq_some`); with these, each answer of `decode` is a condition on the fields, then on the number. -/

namespace Sys2Proof.Machine

/-! ## The fields of a command word (R90) -/

theorem zeroField_toNat (w : Word) : (zeroField w).toNat = w.toNat / 256 := by
  have hw : w.toNat < 2 ^ 32 := w.isLt
  rw [zeroField, BitVec.extractLsb'_toNat, Nat.shiftRight_eq_div_pow, Nat.mod_eq_of_lt (by omega)]

theorem opField_toNat (w : Word) : (opField w).toNat = w.toNat % 256 := by
  rw [opField, BitVec.extractLsb'_toNat, Nat.shiftRight_zero]

theorem zeroField_eq_zero (w : Word) : zeroField w = 0 ↔ w.toNat / 256 = 0 := by
  rw [← zeroField_toNat, BitVec.toNat_eq]
  rfl

theorem word_ext {w v : Word} (hzero : zeroField w = zeroField v) (hop : opField w = opField v) : w = v := by
  have hdiv := congrArg BitVec.toNat hzero
  have hmod := congrArg BitVec.toNat hop
  rw [zeroField_toNat, zeroField_toNat] at hdiv
  rw [opField_toNat, opField_toNat] at hmod
  exact BitVec.eq_of_toNat_eq (by omega)

/-! ## The opcode map (R92) -/

theorem commandWord (i : Instr) : Laws.CommandWord.Statement i := by
  cases i with
  | tblinit => exact Laws.CommandWord.tblinit
  | crc32 => exact Laws.CommandWord.crc32
  | adler32 => exact Laws.CommandWord.adler32
  | be32 => exact Laws.CommandWord.be32
  | putbe32 => exact Laws.CommandWord.putbe32
  | pad => exact Laws.CommandWord.pad
  | zwrap => exact Laws.CommandWord.zwrap
  | sig => exact Laws.CommandWord.sig
  | ihdr => exact Laws.CommandWord.ihdr
  | idat => exact Laws.CommandWord.idat
  | iend => exact Laws.CommandWord.iend
  | encpng => exact Laws.CommandWord.encpng

theorem ofOpcode_opcode (i : Instr) : ofOpcode (opcode i) = some i := by cases i <;> rfl

/-- The opcode map leaves out 0 and everything from 13 on (R94). -/
theorem ofOpcode_eq_none (op : Byte) : ofOpcode op = none ↔ op.toNat = 0 ∨ 13 ≤ op.toNat := by
  unfold ofOpcode
  split
  case h_13 =>
    simp only [imp_false, true_iff] at *
    omega
  all_goals simp only [reduceCtorEq, false_iff]; omega

theorem ofOpcode_eq_some (op : Byte) (i : Instr) : ofOpcode op = some i ↔ op = opcode i := by
  constructor
  · intro h
    unfold ofOpcode at h
    split at h <;> cases h <;> exact BitVec.eq_of_toNat_eq ‹_›
  · rintro rfl
    exact ofOpcode_opcode i

theorem eq_encode_iff (w : Word) (i : Instr) : w = encode i ↔ zeroField w = 0 ∧ opField w = opcode i := by
  obtain ⟨hzero, hop, -, -⟩ := commandWord i
  constructor
  · rintro rfl
    exact ⟨hzero, hop⟩
  · rintro ⟨hz, ho⟩
    exact word_ext (hz.trans hzero.symm) (ho.trans hop.symm)

/-! ## The three answers of the decoder (R98) -/

theorem decode_of_zeroField_ne {w : Word} (hz : zeroField w ≠ 0) : decode w = .error .zeroFieldSet := if_pos hz

theorem decode_of_zeroField {w : Word} (hz : zeroField w = 0) :
    decode w = (ofOpcode (opField w)).elim (.error .opcodeUnassigned) .ok := by
  rw [decode, if_neg (not_not.2 hz)]
  cases ofOpcode (opField w) <;> rfl

theorem decode_eq_zeroFieldSet (w : Word) : decode w = .error .zeroFieldSet ↔ zeroField w ≠ 0 := by
  by_cases hz : zeroField w = 0
  · rw [decode_of_zeroField hz]
    cases ofOpcode (opField w) <;> simp [hz]
  · simp only [decode_of_zeroField_ne hz, hz, ne_eq, not_false_eq_true]

theorem decode_eq_ok (w : Word) (i : Instr) : decode w = .ok i ↔ zeroField w = 0 ∧ ofOpcode (opField w) = some i := by
  by_cases hz : zeroField w = 0
  · rw [decode_of_zeroField hz]
    cases ofOpcode (opField w) <;> simp [hz]
  · simp only [decode_of_zeroField_ne hz, hz, reduceCtorEq, false_and]

theorem decode_eq_opcodeUnassigned (w : Word) :
    decode w = .error .opcodeUnassigned ↔ zeroField w = 0 ∧ ofOpcode (opField w) = none := by
  by_cases hz : zeroField w = 0
  · rw [decode_of_zeroField hz]
    cases ofOpcode (opField w) <;> simp [hz]
  · simp only [decode_of_zeroField_ne hz, hz, Except.error.injEq, reduceCtorEq, false_and]

theorem decode_eq_ok_iff_encode (w : Word) (i : Instr) : decode w = .ok i ↔ w = encode i := by
  rw [decode_eq_ok, ofOpcode_eq_some, eq_encode_iff]

theorem decode_encode (i : Instr) : decode (encode i) = .ok i := (decode_eq_ok_iff_encode _ i).2 rfl

theorem decode_eq_zeroFieldSet_iff_toNat (w : Word) : decode w = .error .zeroFieldSet ↔ w.toNat / 256 ≠ 0 := by
  rw [decode_eq_zeroFieldSet, Ne, zeroField_eq_zero]

theorem decode_eq_opcodeUnassigned_iff_toNat (w : Word) :
    decode w = .error .opcodeUnassigned ↔ w.toNat / 256 = 0 ∧ (w.toNat % 256 = 0 ∨ 13 ≤ w.toNat % 256) := by
  rw [decode_eq_opcodeUnassigned, zeroField_eq_zero, ofOpcode_eq_none, opField_toNat]

theorem exists_decode_eq_ok_iff_toNat (w : Word) : (∃ i, decode w = .ok i) ↔ 1 ≤ w.toNat ∧ w.toNat ≤ 12 := by
  have hassigned : (∃ i, ofOpcode (opField w) = some i) ↔ ¬ (w.toNat % 256 = 0 ∨ 13 ≤ w.toNat % 256) := by
    rw [← opField_toNat, ← ofOpcode_eq_none, ← Option.ne_none_iff_exists']
  simp only [decode_eq_ok, exists_and_left, hassigned, zeroField_eq_zero]
  omega

/-- Settles O3: each answer of the decoder is a condition on the two fields of the word, and a word is its fields. -/
theorem decodeAcceptsExactlyTheEncodings : Obligations.DecodeAcceptsExactlyTheEncodings := fun w =>
  ⟨decode_eq_ok_iff_encode w, decode_eq_zeroFieldSet_iff_toNat w, decode_eq_opcodeUnassigned_iff_toNat w,
    exists_decode_eq_ok_iff_toNat w⟩

/-- Settles O1: the twelve words are those of `encode`, and the edge words meet the conditions for their rejections. -/
theorem tableWordsDecode : Obligations.TableWordsDecode :=
  ⟨decode_encode .tblinit, decode_encode .crc32, decode_encode .adler32, decode_encode .be32, decode_encode .putbe32,
    decode_encode .pad, decode_encode .zwrap, decode_encode .sig, decode_encode .ihdr, decode_encode .idat,
    decode_encode .iend, decode_encode .encpng,
    (decode_eq_opcodeUnassigned_iff_toNat _).2 (by decide), (decode_eq_opcodeUnassigned_iff_toNat _).2 (by decide),
    (decode_eq_opcodeUnassigned_iff_toNat _).2 (by decide), (decode_eq_zeroFieldSet_iff_toNat _).2 (by decide),
    (decode_eq_zeroFieldSet_iff_toNat _).2 (by decide)⟩

theorem wordWf_encode (i : Instr) : wordWf (encode i) = true := by
  obtain ⟨hzero, hop, hlow, hhigh⟩ := commandWord i
  simp [wordWf, hzero, hop, hlow, hhigh]

/-- Settles O2: the word is of format C with an assigned opcode, and decoding inverts encoding. -/
theorem encodedCommandDecodes : Obligations.EncodedCommandDecodes := fun i => ⟨wordWf_encode i, decode_encode i⟩

/-! ## The pseudo-instructions (R97) -/

theorem ldmemWrites_getElem? (a : Nat) (bytes : List Byte) (k : Nat) :
    (ldmemWrites a bytes)[k]? = bytes[k]?.map fun b => Transaction.wrmem (a + k) b := by
  induction bytes generalizing a k with
  | nil => rfl
  | cons b rest ih =>
    cases k with
    | zero => rfl
    | succ k => simp [ldmemWrites, ih, Nat.add_right_comm, Nat.add_assoc]

/-- Settles O16: `LDMEM` by the entry at every index; the other three lines are lists written out, `ENCODE` ending in the word
of ENCPNG. -/
theorem pseudoInstructionsExpand : Obligations.PseudoInstructionsExpand :=
  ⟨ldmemWrites_getElem?, fun _ _ _ _ => rfl, fun _ _ => rfl, fun _ _ _ _ => rfl⟩

end Sys2Proof.Machine


/-! PROOFS. The statements about the checksum engine (41_checksum_engine.md). The shift of R111 is linear over XOR
(`crcShift_xor`), so the eight shifts of a word split into a table entry and a plain shift; the Adler-32 sums are reduced, so two
16-bit registers pack them; what a command does to the table is read off `exec_cases` and `exec_eq_outcome`. -/

namespace Sys2Proof.Machine

/-! ## The table and the bit-serial form (R111, R116) -/

theorem iterate_crcShift_xor (n : Nat) (a b : Word) :
    crcShift^[n] (a ^^^ b) = crcShift^[n] a ^^^ crcShift^[n] b := by
  induction n generalizing a b with
  | zero => rfl
  | succ n ih => rw [Function.iterate_succ_apply, crcShift_xor, ih]; rfl

/-- A word whose low `n` bits are clear meets no polynomial in `n` iterations of R111. -/
theorem iterate_crcShift_of_low_clear (n : Nat) (c : Word) (h : ∀ k < n, c.getLsbD k = false) :
    crcShift^[n] c = c >>> n := by
  induction n generalizing c with
  | zero => exact (BitVec.ushiftRight_zero c).symm
  | succ n ih =>
    have hstep : crcShift c = c >>> 1 := by rw [crcShift, h 0 n.succ_pos]; rfl
    rw [Function.iterate_succ_apply, hstep, ih, ← BitVec.shiftRight_add, Nat.add_comm]
    intro k hk
    rw [BitVec.getLsbD_ushiftRight]
    exact h _ (by omega)

theorem setWidth_byte_shift (b : Byte) : (b.setWidth 32 : Word) >>> 8 = 0#32 := by
  ext k hk
  simp

/-- The low byte of a word, as a word. -/
def lowByte (c : Word) : Word := (c.extractLsb' 0 8).setWidth 32

theorem lowByte_xor_low_clear (c : Word) : ∀ k < 8, (lowByte c ^^^ c).getLsbD k = false := by
  intro k hk
  simp [lowByte, hk, show k < 32 by omega]

/-- Eight iterations look up the low byte and shift the rest down: the two parts of the word do not meet. -/
theorem iterate_crcShift_eight (c : Word) : crcShift^[8] c = tbl (c.extractLsb' 0 8) ^^^ c >>> 8 :=
  calc crcShift^[8] c
    _ = crcShift^[8] (lowByte c ^^^ (lowByte c ^^^ c)) := by
      rw [← BitVec.xor_assoc, BitVec.xor_self, BitVec.zero_xor]
    _ = crcShift^[8] (lowByte c) ^^^ (lowByte c ^^^ c) >>> 8 := by
      rw [iterate_crcShift_xor, iterate_crcShift_of_low_clear 8 _ (lowByte_xor_low_clear c)]
    _ = tbl (c.extractLsb' 0 8) ^^^ c >>> 8 := by
      rw [BitVec.ushiftRight_xor_distrib, lowByte, setWidth_byte_shift, BitVec.zero_xor, tbl]

/-- One byte of R113 from the built table is one byte of the bit-serial form (R116). -/
theorem crcStep_builtTable (c : Word) (b : Byte) : crcStep builtTable c b = crcSerialStep c b := by
  have hshift : (c ^^^ b.setWidth 32) >>> 8 = c >>> 8 := by
    rw [BitVec.ushiftRight_xor_distrib, setWidth_byte_shift, BitVec.xor_zero]
  rw [crcStep, tableAt_builtTable, crcSerialStep, iterate_crcShift_eight, hshift]

/-- Settles O21: both are folds from `CRC_INIT`, by the same step. -/
theorem tableDrivenCrcEqualsBitSerial : Obligations.TableDrivenCrcEqualsBitSerial := by
  intro bytes
  have hstep : crcStep builtTable = crcSerialStep := funext₂ crcStep_builtTable
  rw [crcAcc, crcAccWith, hstep, crcSerial]

/-- The iteration of R111 with the low bit read off the number. -/
theorem crcShift_eq_of_toNat (c : Word) :
    crcShift c = if c.toNat % 2 = 1 then (c >>> 1) ^^^ 0xEDB88320#32 else c >>> 1 := by
  simp [crcShift, crcPoly, BitVec.getLsbD, Nat.testBit_zero]

/-- Settles O18: an entry is `Tbl` of its index, whose iteration is that of R111, and the listed words are `Tbl` evaluated. -/
theorem builtTableHoldsTbl : Obligations.BuiltTableHoldsTbl := by
  refine ⟨fun n => ?_, ?_⟩
  · rw [tableAt_builtTable, tbl, funext crcShift_eq_of_toNat]
  · simp only [tableAt_builtTable]
    decide

/-! ## The Adler-32 sums (R120, R121) -/

theorem adlerAcc_lt (bytes : List Byte) : (adlerAcc bytes).1 < 65521 ∧ (adlerAcc bytes).2 < 65521 :=
  foldl_adlerStep_lt bytes (by decide)

theorem adler32_toNat (bytes : List Byte) :
    (adler32 bytes).toNat = (adlerAcc bytes).2 * 65536 + (adlerAcc bytes).1 := by
  obtain ⟨h1, h2⟩ := adlerAcc_lt bytes
  exact Nat.mod_eq_of_lt (by omega)

/-- Settles O22: the sums are below 65521, so the packing neither overlaps nor leaves 32 bits. -/
theorem adlerSumsStayReduced : Obligations.AdlerSumsStayReduced := by
  intro bytes
  obtain ⟨h1, h2⟩ := adlerAcc_lt bytes
  have hpack := adler32_toNat bytes
  exact ⟨h1, h2, hpack, by omega, by omega, rfl⟩

/-- `S1` and `S2` hold the reduced sums without loss, so the register `ADLER` is the checksum (R36, R121). -/
theorem adlerWord_computeAdler (bytes : List Byte) (s : State) : adlerWord (computeAdler bytes s) = adler32 bytes := by
  obtain ⟨h1, h2⟩ := adlerAcc_lt bytes
  refine BitVec.eq_of_toNat_eq ?_
  rw [adlerWord_toNat, adler32_toNat, computeAdler, setAdler_s1, setAdler_s2, BitVec.toNat_ofNat, BitVec.toNat_ofNat,
    Nat.mod_eq_of_lt (by omega), Nat.mod_eq_of_lt (by omega)]

/-! ## The reference checksums (V1 to V5) -/

/-- Settles O23: the CRCs are evaluated in the bit-serial form, which needs no table. -/
theorem referenceChecksums : Obligations.ReferenceChecksums := by
  have hcrc (bytes : List Byte) : crc32 bytes = crcFinal (crcSerial bytes) :=
    congrArg crcFinal (tableDrivenCrcEqualsBitSerial bytes)
  simp only [Obligations.ReferenceChecksums, hcrc]
  decide +kernel

/-! ## The three commands of the engine (R117, R118, R123) -/

/-- Settles O17: TBLINIT has no check, and its outcome is the table of `EnsureTable`. -/
theorem tblinitBuildsTheTable : Obligations.TblinitBuildsTheTable := exec_eq_outcome .tblinit

/-- Settles O19: the frame of the span commands, with the engine computing from the built table. -/
theorem crcCommandChecksumsTheSpan : Obligations.CrcCommandChecksumsTheSpan := by
  intro s h
  obtain ⟨hin, hout⟩ := spanCommand_eq .crc32 crcOfSpan s
  refine ⟨fun hspan => (hin hspan).trans ?_, hout⟩
  simp only [crcOfSpan, computeCrc_of_ok (s := startCommand .crc32 s) h, crcFinal_eq_not]
  rfl

/-- Settles O20: the frame of the span commands, with `ADLER` read back as the checksum. -/
theorem adlerCommandChecksumsTheSpan : Obligations.AdlerCommandChecksumsTheSpan := by
  intro s
  obtain ⟨hin, hout⟩ := spanCommand_eq .adler32 adlerOfSpan s
  refine ⟨fun hspan => (hin hspan).trans ?_, hout⟩
  simp only [adlerOfSpan, adlerWord_computeAdler]
  rfl

/-! ## Commands and the table (R115, R116) -/

theorem finish_table (e : Ending) (s : State) : (e.finish s).table = s.table := by cases e <;> rfl

/-- Under R41 (d) the CRC engine computes with the built table, whether or not it was built before (R115). -/
theorem engineTable_of_ok {s : State} (h : TableOk s) : engineTable s = builtTable := by
  unfold engineTable
  split
  · next htv => exact h htv
  · rfl

/-- Settles O52: a failed check leaves `TV` and `TABLE` and its error is neither 0 nor `IO`; after a passed one the compute phase
decides them, and the end of the command leaves them. -/
theorem onlyCrcCommandsBuildTheTable : Obligations.OnlyCrcCommandsBuildTheTable := by
  intro i s t h hexec
  obtain ⟨e, he, rfl⟩ | ⟨-, rfl⟩ := exec_cases hexec
  · obtain rfl | rfl | rfl := preCheck_error he <;> simp
  · have herr := finish_err (ending i s) (computed i s)
    rw [finish_tv, finish_table]
    refine ⟨fun huse _ => ?_, ?_⟩
    · simp [computed, huse, engineTable_of_ok h]
    · rintro (huse | ⟨hok, hio⟩)
      · simp [computed, huse]
      · exact absurd herr (not_or.2 ⟨hok, hio⟩)

section
variable {i : Instr} {s : State}

theorem preCheck_buildTable : preCheck i (buildTable s) = preCheck i s := by cases i <;> rfl
theorem crcInput_buildTable : crcInput i (buildTable s) = crcInput i s := by cases i <;> rfl
theorem adlerInput_buildTable : adlerInput i (buildTable s) = adlerInput i s := by cases i <;> rfl

theorem engineTable_buildTable (h : TableOk s) : engineTable (buildTable s) = engineTable s :=
  (engineTable_of_ok h).symm

theorem ending_buildTable (h : TableOk s) : ending i (buildTable s) = ending i s := by
  have htable := engineTable_buildTable h
  cases i with
  | crc32 | ihdr | idat | encpng => simp only [ending, htable]; rfl
  | tblinit | adler32 | be32 | putbe32 | pad | zwrap | sig | iend => rfl

theorem computed_buildTable (h : TableOk s) : computed i (buildTable s) = buildTable (computed i s) := by
  unfold computed
  rw [crcInput_buildTable, adlerInput_buildTable, engineTable_buildTable h, engineTable_of_ok h]
  cases usesTable i <;> rfl

theorem finish_buildTable (e : Ending) : e.finish (buildTable s) = buildTable (e.finish s) := by cases e <;> rfl

theorem outcome_buildTable (h : TableOk s) : outcome i (buildTable s) = buildTable (outcome i s) := by
  unfold outcome
  rw [preCheck_buildTable, ending_buildTable h, computed_buildTable h, finish_buildTable]
  cases preCheck i s <;> rfl

end

/-- Settles O54: check, inputs and end of a command are the same with the table built, since the engine computes with the built
table either way. -/
theorem tableFlagNeverChangesAResult : Obligations.TableFlagNeverChangesAResult := by
  intro i s t h hexec
  rw [exec_eq_outcome] at hexec
  cases hexec
  exact (exec_eq_outcome ..).trans (congrArg _ (outcome_buildTable h))

end Sys2Proof.Machine


/-! PROOFS. The statements about the endian utility (42_endian_utility.md). A word is the concatenation of its four bytes
(`bytes_of_word`), and `byteOf` reads them back (`byteOf_bytes`); so the byte swap is a permutation of the bytes. What the two
commands do is read off `exec_eq_outcome`. -/

namespace Sys2Proof.Machine

/-! ## The bytes of a word (R6) -/

theorem byteOf_toNat (k : Nat) (v : Word) : (byteOf k v).toNat = v.toNat / 2 ^ (8 * k) % 256 := by
  rw [byteOf, BitVec.extractLsb'_toNat, Nat.shiftRight_eq_div_pow]

theorem append_toNat_eq_add {m n : Nat} (x : BitVec m) (y : BitVec n) :
    (x ++ y).toNat = x.toNat * 2 ^ n + y.toNat := by
  rw [BitVec.toNat_append, ← Nat.shiftLeft_add_eq_or_of_lt y.isLt, Nat.shiftLeft_eq]

theorem bytes_toNat (a b c d : Byte) :
    (a ++ b ++ c ++ d : Word).toNat = a.toNat * 2 ^ 24 + b.toNat * 2 ^ 16 + c.toNat * 2 ^ 8 + d.toNat := by
  show (a ++ b ++ c ++ d : BitVec (8 + 8 + 8 + 8)).toNat = _
  simp only [append_toNat_eq_add]
  ring

/-- The bytes of a word written as four bytes, from the least significant. -/
theorem byteOf_bytes {k : Nat} (hk : k < 4) (a b c d : Byte) : byteOf k (a ++ b ++ c ++ d) = [d, c, b, a][k] := by
  refine BitVec.eq_of_toNat_eq ?_
  rw [byteOf_toNat, bytes_toNat]
  interval_cases k
  · show _ = d.toNat; omega
  · show _ = c.toNat; omega
  · show _ = b.toNat; omega
  · show _ = a.toNat; omega

theorem bytes_of_word (v : Word) : byteOf 3 v ++ byteOf 2 v ++ byteOf 1 v ++ byteOf 0 v = v := by
  refine BitVec.eq_of_toNat_eq ?_
  simp only [bytes_toNat, byteOf_toNat]
  omega

/-! ## The byte swap (R140, R142) -/

theorem bswap32_toNat (v : Word) :
    (bswap32 v).toNat =
      v.toNat % 256 * 2 ^ 24 + v.toNat / 2 ^ 8 % 256 * 2 ^ 16 + v.toNat / 2 ^ 16 % 256 * 2 ^ 8 + v.toNat / 2 ^ 24 := by
  simp only [bswap32, bytes_toNat, byteOf_toNat]
  omega

theorem bswap32_bswap32 (v : Word) : bswap32 (bswap32 v) = v :=
  calc bswap32 (bswap32 v)
    _ = byteOf 3 v ++ byteOf 2 v ++ byteOf 1 v ++ byteOf 0 v := by simp [bswap32, byteOf_bytes]
    _ = v := bytes_of_word v

/-- From the least significant byte on, the swapped word holds the word most significant byte first. -/
theorem be32_eq_bytes_bswap32 (v : Word) :
    be32 v = [byteOf 0 (bswap32 v), byteOf 1 (bswap32 v), byteOf 2 (bswap32 v), byteOf 3 (bswap32 v)] := by
  simp [be32, bswap32, byteOf_bytes]

/-- Settles O25: as a number the swapped word is its bytes, and reading them back gives those of the word, reversed. -/
theorem byteSwapPermutesTheBytes : Obligations.ByteSwapPermutesTheBytes := fun v =>
  ⟨bswap32_toNat v, bswap32_bswap32 v, be32_eq_bytes_bswap32 v⟩

/-! ## The two commands (R141, R143) -/

/-- Settles O24: BE32 has no check and computes no register, and it ends with the swapped word in `RES`. -/
theorem beCommandSwapsVal : Obligations.BeCommandSwapsVal := exec_eq_outcome .be32

/-- Settles O26: PUTBE32 has no check and computes no register, and it ends with the write pass of `be32(VAL)`. -/
theorem putbeCommandWritesBigEndian : Obligations.PutbeCommandWritesBigEndian := exec_eq_outcome .putbe32

end Sys2Proof.Machine


/-! PROOFS. The statements about the pixel assembler (43_pixel_assembler.md). A raster command that fails `Validate` ends in the
error of its check (`exec_of_validate_error`), and each check of R150 gives its error. All scanlines have the same length, so
byte `i` of the block stands in scanline `i div (PW + 1)` at `i mod (PW + 1)`; there it is the filter byte or, by the two kinds
of row of R154, the sample of R156. -/

namespace Sys2Proof.Machine

/-! ## Validate (R150) -/

/-- Check 1. -/
theorem validate_of_zero_dim {s : State} (h : s.width.toNat = 0 ∨ s.height.toNat = 0) : validate s = some .dim := if_pos h

/-- Check 2, made only if check 1 passed. -/
theorem validate_of_block_too_long {s : State} (hw : s.width.toNat ≠ 0) (hh : s.height.toNat ≠ 0)
    (hlen : 65535 < (s.height.toNat + 2 * s.border.toNat) * (s.width.toNat + 2 * s.border.toNat + 1)) :
    validate s = some .size :=
  (if_neg (not_or.2 ⟨hw, hh⟩)).trans (if_pos hlen)

/-- Check 3, made only if checks 1 and 2 passed. -/
theorem validate_of_raster_outside {s : State} (hw : s.width.toNat ≠ 0) (hh : s.height.toNat ≠ 0)
    (hlen : (s.height.toNat + 2 * s.border.toNat) * (s.width.toNat + 2 * s.border.toNat + 1) ≤ 65535)
    (hout : s.memSize < s.rbase.toNat + s.width.toNat * s.height.toNat) : validate s = some .dim :=
  (if_neg (not_or.2 ⟨hw, hh⟩)).trans ((if_neg hlen.not_gt).trans (if_pos hout))

/-- A raster command that fails `Validate` changes nothing but `CMD` and `ERR`. -/
theorem exec_of_validate_error {i : Instr} {s : State} {e : ErrCode} (hi : isRaster i = true) (h : validate s = some e) :
    exec i s = .next { s with cmd := encode i, err := e } := by
  rw [exec_eq_outcome, outcome, preCheck_of_isRaster hi, h]
  rfl

/-- Settles O29: each clause is one check of `Validate` with those before it passed. -/
theorem rasterChecksFailInOrder : Obligations.RasterChecksFailInOrder := fun _ _ hi =>
  ⟨fun hzero => exec_of_validate_error hi (validate_of_zero_dim hzero),
    fun hw hh hlen => exec_of_validate_error hi (validate_of_block_too_long hw hh hlen),
    fun hw hh hlen hout => exec_of_validate_error hi (validate_of_raster_outside hw hh hlen hout)⟩

/-! ## What holds after Validate (R153) -/

/-- In a raster of `h` rows of `w` bytes, column `c` of row `r` is one of the first `w * h` bytes (R63). -/
theorem rasterIndex_lt {w h r c : Nat} (hr : r < h) (hc : c < w) : r * w + c < w * h :=
  calc r * w + c
    _ < (r + 1) * w := by rw [Nat.succ_mul]; omega
    _ ≤ h * w := Nat.mul_le_mul_right w hr
    _ = w * h := Nat.mul_comm h w

/-- The bound on the block bounds the border, since the block of the smallest picture grows with it: border 128 is too much. -/
theorem border_le_of_block_le {w h b : Nat} (hw : 1 ≤ w) (hh : 1 ≤ h) (hlen : (h + 2 * b) * (w + 2 * b + 1) ≤ 65535) :
    b ≤ 127 := by
  by_contra hb
  have : 257 * 258 ≤ (h + 2 * b) * (w + 2 * b + 1) := Nat.mul_le_mul (by omega) (by omega)
  omega

/-- Settles O30: both factors of `LEN` and `W * H` are bounded because `LEN` is, and the last raster byte is inside MEM. -/
theorem validDimensionsAreBounded : Obligations.ValidDimensionsAreBounded := by
  rintro s ⟨hw, hh, hlen, hin⟩
  simp only [dims, blockLen, paddedWidth, paddedHeight]
  generalize s.width.toNat = w at *
  generalize s.height.toNat = h at *
  generalize s.border.toNat = b at *
  have hpw : 1 * (w + 2 * b + 1) ≤ 65535 := (Nat.mul_le_mul_right _ (by omega)).trans hlen
  have hph : (h + 2 * b) * 2 ≤ 65535 := (Nat.mul_le_mul_left _ (by omega)).trans hlen
  have hmin : 1 * 2 ≤ (h + 2 * b) * (w + 2 * b + 1) := Nat.mul_le_mul (by omega) (by omega)
  have hpicture : h * (w + 1) ≤ 65535 := (Nat.mul_le_mul (by omega) (by omega)).trans hlen
  rw [Nat.mul_succ, Nat.mul_comm] at hpicture
  refine ⟨by omega, by omega, by omega, by omega, by omega, by omega, hmin, hlen,
    border_le_of_block_le (by omega) (by omega) hlen, by omega, fun r c hr hc => ?_⟩
  have := rasterIndex_lt hr hc
  omega

/-! ## The scanline block (R154, R156) -/

/-- Pieces of one length `n`, one after another: piece `r` starts at `r * n`. -/
theorem flatMap_getElem?_const {α β : Type} (l : List α) (f : α → List β) (n : Nat) (hlen : ∀ x ∈ l, (f x).length = n)
    {r j : Nat} (hj : j < n) : (l.flatMap f)[r * n + j]? = l[r]?.bind fun x => (f x)[j]? := by
  induction l generalizing r with
  | nil => rfl
  | cons x l ih =>
    have hx : (f x).length = n := hlen x (by simp)
    rw [List.flatMap_cons]
    cases r with
    | zero =>
      rw [Nat.zero_mul, Nat.zero_add, List.getElem?_append_left (hx ▸ hj)]
      rfl
    | succ r =>
      have hpos : (r + 1) * n + j = n + (r * n + j) := by ring
      rw [hpos, List.getElem?_append_right (by omega), hx, Nat.add_sub_cancel_left,
        ih fun y hy => hlen y (by simp [hy])]
      rfl

theorem memSpan_getElem? (s : State) (a : Nat) {n k : Nat} (hk : k < n) :
    (memSpan s a n)[k]? = some (memByte s.mem (a + k)) := by
  simp [memSpan, hk]

/-- Row `k` of the raster holds the bytes of MEM from `RBASE + k * W` upward (R154). -/
theorem rasterRow_rasterOf_getElem? (s : State) {k c : Nat} (hk : k < (dims s).h) (hc : c < (dims s).w) :
    (rasterRow (dims s) (rasterOf s) k)[c]? = some (memByte s.mem (s.rbase.toNat + k * (dims s).w + c)) := by
  rw [rasterRow, List.getElem?_take_of_lt hc, List.getElem?_drop, rasterOf, memSpan_getElem? s _ (rasterIndex_lt hk hc),
    Nat.add_assoc]

theorem sampleAt_of_inside {s : State} {r c : Nat} (hr : (dims s).b ≤ r ∧ r < (dims s).b + (dims s).h)
    (hc : (dims s).b ≤ c ∧ c < (dims s).b + (dims s).w) :
    sampleAt s r c = memByte s.mem (s.rbase.toNat + (r - (dims s).b) * (dims s).w + (c - (dims s).b)) :=
  if_pos ⟨hr.1, hr.2, hc⟩

theorem sampleAt_of_border_row {s : State} {r : Nat} (hr : ¬ ((dims s).b ≤ r ∧ r < (dims s).b + (dims s).h)) (c : Nat) :
    sampleAt s r c = fillByte :=
  if_neg fun h => hr ⟨h.1, h.2.1⟩

theorem sampleAt_of_border_column {s : State} {c : Nat} (r : Nat) (hc : ¬ ((dims s).b ≤ c ∧ c < (dims s).b + (dims s).w)) :
    sampleAt s r c = fillByte :=
  if_neg fun h => hc h.2.2

/-- A row with `b` fill bytes on each side: those left of the middle, the middle, those right of it. -/
theorem fill_append_fill_getElem? (row : List Byte) {b c : Nat} (hc : c < row.length + 2 * b) :
    (List.replicate b fillByte ++ row ++ List.replicate b fillByte)[c]? =
      if b ≤ c ∧ c < b + row.length then row[c - b]? else some fillByte := by
  have hfill : (List.replicate b fillByte).length = b := List.length_replicate
  have hfront : (List.replicate b fillByte ++ row).length = b + row.length := by rw [List.length_append, hfill]
  split
  · next hmid =>
    rw [List.getElem?_append_left (by omega), List.getElem?_append_right (by omega), hfill]
  · next hside =>
    obtain hleft | hright : c < b ∨ b + row.length ≤ c := by omega
    · rw [List.append_assoc, List.getElem?_append_left (by omega), List.getElem?_replicate_of_lt hleft]
    · rw [List.getElem?_append_right (by omega), List.getElem?_replicate_of_lt (by omega)]

/-- Sample `c` of padded row `r`, by the two kinds of row of R154, is the sample of R156. -/
theorem paddedRow_rasterOf_getElem? (s : State) (r : Nat) {c : Nat} (hc : c < paddedWidth (dims s)) :
    (paddedRow (dims s) (rasterOf s) r)[c]? = some (sampleAt s r c) := by
  unfold paddedRow
  split
  · next hr =>
    have hk : r - (dims s).b < (dims s).h := by omega
    have hlen := rasterRow_length (rasterOf_length s) hk
    rw [fill_append_fill_getElem? _ (by rw [hlen]; exact hc), hlen]
    split
    · next hmid => rw [rasterRow_rasterOf_getElem? s hk (by omega), sampleAt_of_inside hr hmid]
    · next hside => rw [sampleAt_of_border_column r hside]
  · next hr => rw [List.getElem?_replicate_of_lt hc, sampleAt_of_border_row hr]

/-- A scanline is the filter byte and then the samples of its row. -/
theorem scanline_rasterOf_getElem? (s : State) (r : Nat) {j : Nat} (hj : j < paddedWidth (dims s) + 1) :
    (scanline (dims s) (rasterOf s) r)[j]? = some (if j = 0 then 0 else sampleAt s r (j - 1)) := by
  cases j with
  | zero => rfl
  | succ c => exact paddedRow_rasterOf_getElem? s r (Nat.lt_of_succ_lt_succ hj)

/-- Settles O32: byte `i` of the block is byte `i mod (PW + 1)` of scanline `i div (PW + 1)`. -/
theorem scanlineBlockHoldsTheSamples : Obligations.ScanlineBlockHoldsTheSamples := by
  refine fun s => ⟨scanlineBlock_rasterOf_length s, fun i hi => ?_⟩
  have hr : i / (paddedWidth (dims s) + 1) < paddedHeight (dims s) := (Nat.div_lt_iff_lt_mul (Nat.succ_pos _)).2 hi
  have hj : i % (paddedWidth (dims s) + 1) < paddedWidth (dims s) + 1 := Nat.mod_lt _ (Nat.succ_pos _)
  have hblock := flatMap_getElem?_const (List.range (paddedHeight (dims s))) (scanline (dims s) (rasterOf s)) _
    (fun r _ => scanline_length (rasterOf_length s) r) (r := i / (paddedWidth (dims s) + 1)) hj
  rw [Nat.div_add_mod', List.getElem?_range hr] at hblock
  exact hblock.trans (scanline_rasterOf_getElem? s _ hj)

/-! ## PAD (R157) -/

/-- Settles O31: the frame of the raster commands; the block has `LEN` bytes, so `RES` is `LEN`. -/
theorem padCommandWritesTheBlock : Obligations.PadCommandWritesTheBlock := by
  refine fun s => ⟨fun hvalid => ?_, fun e he => exec_of_validate_error (i := .pad) rfl he⟩
  calc exec .pad s
    _ = .next (emit (scanlineBlock (dims s) (rasterOf s)) (startCommand .pad s)) :=
      (rasterCommand_eq .pad _ s).1 hvalid
    _ = _ := by
      rw [emit_eq, scanlineBlock_rasterOf_length]
      rfl

end Sys2Proof.Machine


/-! PROOFS. The statements about the zlib wrapper (44_zlib_wrapper.md). The stream's number fields are bytes of numbers: those of
`LEN` and its complement, least significant first (`lenFields_eq`), and those of the packed Adler-32 sums, most significant
first (`be32_adler32`). Of `Validate` the layout needs only that `LEN` fits 16 bits. What ZWRAP does is read off
`exec_eq_outcome`. -/

namespace Sys2Proof.Machine

/-! ## The number fields of the stream (R173, R174) -/

theorem le16_eq (v : Half) : le16 v = [BitVec.ofNat 8 (v.toNat % 256), BitVec.ofNat 8 (v.toNat / 256)] := by
  have hlow : v.extractLsb' 0 8 = BitVec.ofNat 8 (v.toNat % 256) := BitVec.eq_of_toNat_eq (by simp)
  have hhigh : v.extractLsb' 8 8 = BitVec.ofNat 8 (v.toNat / 256) :=
    BitVec.eq_of_toNat_eq (by simp [Nat.shiftRight_eq_div_pow])
  rw [le16, hlow, hhigh]

/-- The complement of a length that fits 16 bits is its difference to 65535 (R173). -/
theorem lenFields_eq {len : Nat} (hlen : len ≤ 65535) :
    lenFields len =
      [BitVec.ofNat 8 (len % 256), BitVec.ofNat 8 (len / 256),
       BitVec.ofNat 8 ((65535 - len) % 256), BitVec.ofNat 8 ((65535 - len) / 256)] := by
  have hfit : (BitVec.ofNat 16 len).toNat = len := Nat.mod_eq_of_lt (Nat.lt_succ_of_le hlen)
  have hnot : (~~~ BitVec.ofNat 16 len).toNat = 65535 - len := by rw [BitVec.toNat_not, hfit]
  rw [lenFields, le16_eq, le16_eq, hfit, hnot]
  rfl

/-- Two numbers that fit 16 bits, packed into one word, are written as the two bytes of the one and then of the other. -/
theorem be32_of_halves {hi lo : Nat} (hhi : hi < 65536) (hlo : lo < 65536) :
    be32 (BitVec.ofNat 32 (hi * 65536 + lo)) =
      [BitVec.ofNat 8 (hi / 256), BitVec.ofNat 8 (hi % 256), BitVec.ofNat 8 (lo / 256), BitVec.ofNat 8 (lo % 256)] := by
  have hword : (BitVec.ofNat 32 (hi * 65536 + lo)).toNat = hi * 65536 + lo := Nat.mod_eq_of_lt (by omega)
  have hbyte (k n : Nat) (hn : (hi * 65536 + lo) / 2 ^ (8 * k) % 256 = n % 256) :
      byteOf k (BitVec.ofNat 32 (hi * 65536 + lo)) = BitVec.ofNat 8 n :=
    BitVec.eq_of_toNat_eq (by rw [byteOf_toNat, hword, hn, BitVec.toNat_ofNat])
  rw [be32, hbyte 3 (hi / 256) (by omega), hbyte 2 (hi % 256) (by omega), hbyte 1 (lo / 256) (by omega),
    hbyte 0 (lo % 256) (by omega)]

/-- The trailer (R174); the sums are reduced, so each fits its half of the word. -/
theorem be32_adler32 (bytes : List Byte) :
    be32 (adler32 bytes) =
      [BitVec.ofNat 8 ((adlerAcc bytes).2 / 256), BitVec.ofNat 8 ((adlerAcc bytes).2 % 256),
       BitVec.ofNat 8 ((adlerAcc bytes).1 / 256), BitVec.ofNat 8 ((adlerAcc bytes).1 % 256)] := by
  obtain ⟨h1, h2⟩ := adlerAcc_lt bytes
  exact be32_of_halves (by omega) (by omega)

/-- Settles O34: the number fields byte by byte, around the header, the stored-block header and the block. -/
theorem zlibStreamHasItsSixParts : Obligations.ZlibStreamHasItsSixParts := by
  rintro s ⟨-, -, hblock, -⟩
  have hlen : blockLen (dims s) ≤ 65535 := hblock
  refine ⟨?_, zlibOf_rasterOf_length s⟩
  rw [zlibOf, zlibStream, lenFields_eq hlen, be32_adler32]
  rfl

/-! ## ZWRAP (R177) -/

/-- A raster command that passes `Validate` computes and ends. -/
theorem exec_of_valid {i : Instr} {s : State} (hi : isRaster i = true) (h : Valid s) :
    exec i s = .next ((ending i s).finish (computed i s)) := by
  rw [exec_eq_outcome, outcome, preCheck_of_isRaster hi, (validate_eq_none s).2 h]
  rfl

/-- Settles O33: ZWRAP computes the sums of the block and ends with the write pass of the stream, whose length is `RES`. -/
theorem zwrapCommandWritesTheStream : Obligations.ZwrapCommandWritesTheStream := by
  refine fun s => ⟨fun hvalid => ?_, fun e he => exec_of_validate_error (i := .zwrap) rfl he⟩
  rw [exec_of_valid rfl hvalid, ending, Ending.finish, zlibOf_rasterOf_length]
  rfl

end Sys2Proof.Machine


/-! PROOFS. The statements about the chunk framer (45_chunk_framer.md). A number written big-endian is its four base-256 digits
(`be32_ofNat`), and under R41 (d) the engine's chunk is `Chunk` (`chunkBy_engineTable`); so the layouts are the definitions
written out, and the commands are read off `exec_eq_outcome`. A pass of accepted bytes is `received`, and receiving one
sequence after another is receiving both (`received_append`), from which ENCPNG is its parts. -/

namespace Sys2Proof.Machine

/-! ## The chunk envelope (R190, R192) -/

theorem byteOf_ofNat {k : Nat} (hk : k < 4) (n : Nat) :
    byteOf k (BitVec.ofNat 32 n) = BitVec.ofNat 8 (n / 2 ^ (8 * k)) := by
  refine BitVec.eq_of_toNat_eq ?_
  rw [byteOf_toNat, BitVec.toNat_ofNat, BitVec.toNat_ofNat]
  interval_cases k <;> omega

/-- The four bytes of a number; its part above 32 bits shows in none of them. -/
theorem be32_ofNat (n : Nat) :
    be32 (BitVec.ofNat 32 n) =
      [BitVec.ofNat 8 (n / 2 ^ 24), BitVec.ofNat 8 (n / 2 ^ 16), BitVec.ofNat 8 (n / 2 ^ 8), BitVec.ofNat 8 n] := by
  rw [be32, byteOf_ofNat (k := 3) (by decide), byteOf_ofNat (k := 2) (by decide), byteOf_ofNat (k := 1) (by decide),
    byteOf_ofNat (k := 0) (by decide), Nat.mul_zero, Nat.pow_zero, Nat.div_one]

@[simp] theorem chunk_length (t d : List Byte) : (chunk t d).length = t.length + d.length + 8 := chunkWith_length ..

/-- The chunk as its length field and the rest, bracketed from the right. -/
theorem chunk_eq (t d : List Byte) :
    chunk t d = be32 (BitVec.ofNat 32 d.length) ++ (t ++ (d ++ be32 (crc32 (t ++ d)))) := by
  simp only [chunk, chunkWith, List.append_assoc]

/-- Settles O38: the length field has four bytes and so has the type, so each part starts where those before it end. -/
theorem chunkEnvelopeLayout : Obligations.ChunkEnvelopeLayout := by
  intro t d ht _
  have hlen := be32_length (BitVec.ofNat 32 d.length)
  have htype : (chunk t d).drop 4 = t ++ (d ++ be32 (crc32 (t ++ d))) := by rw [chunk_eq, List.drop_left' hlen]
  have hdata : (chunk t d).drop 8 = d ++ be32 (crc32 (t ++ d)) := by
    rw [← List.drop_drop (i := 4) (j := 4), htype, List.drop_left' ht]
  refine ⟨by rw [chunk_length, ht]; omega, ?_, ?_, ?_, ?_⟩
  · rw [chunk_eq, List.take_left' hlen, be32_ofNat]
  · rw [htype, List.take_left' ht]
  · rw [hdata, List.take_left' rfl]
  · rw [Nat.add_comm, ← List.drop_drop, hdata, List.drop_left' rfl]

/-- Settles O37: the constant's last four bytes are the reference CRC of "IEND". -/
theorem iendBytesAreAChunk : Obligations.IendBytesAreAChunk := by
  obtain ⟨-, -, hcrc, -⟩ := referenceChecksums
  rw [Obligations.IendBytesAreAChunk, chunk, List.append_nil, hcrc]
  rfl

/-! ## The layout of the parts and of the file (R196, R198, R205) -/

theorem be32_ofNat_of_lt {n : Nat} (hn : n < 2 ^ 16) :
    be32 (BitVec.ofNat 32 n) = [0, 0, BitVec.ofNat 8 (n / 256), BitVec.ofNat 8 n] := by
  rw [be32_ofNat, Nat.div_eq_of_lt (hn.trans (by decide)), Nat.div_eq_of_lt hn]
  rfl

theorem ihdrBytes_eq (d : Dims) :
    ihdrBytes d =
      [0x00, 0x00, 0x00, 0x0D, 0x49, 0x48, 0x44, 0x52] ++ ihdrRecord d ++
        be32 (crc32 ([0x49, 0x48, 0x44, 0x52] ++ ihdrRecord d)) := by
  rw [ihdrBytes, chunk, chunkWith, ihdrRecord_length]
  rfl

/-- Settles O40: after `Validate` both padded dimensions fit 16 bits, and the record has 13 bytes. -/
theorem ihdrImageLayout : Obligations.IhdrImageLayout := by
  intro s hvalid
  obtain ⟨-, -, -, hpw, -, hph, -⟩ := validDimensionsAreBounded s hvalid
  refine ⟨?_, ihdrBytes_eq (dims s)⟩
  rw [ihdrRecord, be32_ofNat_of_lt (by omega), be32_ofNat_of_lt (by omega)]
  rfl

@[simp] theorem ihdrBytes_length (d : Dims) : (ihdrBytes d).length = 25 := chunk_length ..

@[simp] theorem idatBytes_rasterOf_length (s : State) :
    (idatBytes (dims s) (rasterOf s)).length = blockLen (dims s) + 23 := by
  rw [idatBytes, chunk_length, typeIdat_length, zlibOf_rasterOf_length]
  omega

@[simp] theorem pngBytes_rasterOf_length (s : State) :
    (pngBytes (dims s) (rasterOf s)).length = blockLen (dims s) + 68 := by
  simp only [pngBytes, List.length_append, sigBytes_length, ihdrBytes_length, idatBytes_rasterOf_length, iendBytes_length]
  omega

/-- Settles O43: the definitions of the parts written out, with the length of the zlib stream in the IDAT chunk. -/
theorem pngFileLayout : Obligations.PngFileLayout := by
  intro s hvalid
  obtain ⟨-, -, -, -, -, -, hmin, hmax, -⟩ := validDimensionsAreBounded s hvalid
  refine ⟨?_, pngBytes_rasterOf_length s, by omega, by omega⟩
  rw [pngBytes, ihdrBytes_eq, idatBytes, chunk_eq, zlibOf_rasterOf_length]
  simp only [zlibOf, zlibStream, lenFields, ihdrRecord, sigBytes, ihdrFixed, typeIdat, zlibHeader, storedHeader, iendBytes,
    List.append_assoc, List.cons_append, List.nil_append]

/-! ## The commands (R195, R197, R200, R203, R207) -/

/-- Settles O35: SIG has no check and computes no register, and it ends with the write pass of the signature. -/
theorem sigCommandWritesTheSignature : Obligations.SigCommandWritesTheSignature := exec_eq_outcome .sig

/-- Settles O36: IEND has no check and computes no register, and it ends with the write pass of the fixed chunk. -/
theorem iendCommandWritesTheEndChunk : Obligations.IendCommandWritesTheEndChunk := exec_eq_outcome .iend

/-- Under R41 (d) the chunk the engine computes is `Chunk` (R192). -/
theorem chunkBy_engineTable {s : State} (h : TableOk s) (t d : List Byte) : chunkBy (engineTable s) t d = chunk t d := by
  rw [engineTable_of_ok h]
  rfl

/-- A raster command that uses the table and writes `bytes`, once `Validate` has passed: under R41 (d) it leaves the built table
and `crc_acc`, and it ends with the write pass of `bytes`. -/
theorem exec_of_valid_tableOk {i : Instr} {s : State} {bytes : List Byte} (hi : isRaster i = true)
    (huse : usesTable i = true) (h : TableOk s) (hvalid : Valid s) (hend : ending i s = .output bytes) :
    exec i s =
      .next (afterPass bytes
        { s with
          cmd := encode i, tv := true, table := builtTable
          crc := (crcInput i s).elim s.crc crcAcc
          s1 := (adlerInput i s).elim s.s1 fun block => BitVec.ofNat 16 (adlerAcc block).1
          s2 := (adlerInput i s).elim s.s2 fun block => BitVec.ofNat 16 (adlerAcc block).2
          res := BitVec.ofNat 32 bytes.length }) := by
  rw [exec_of_valid hi hvalid, hend, computed, huse, engineTable_of_ok h]
  rfl

/-- Settles O39: IHDR ends with the write pass of its chunk of 25 bytes. -/
theorem ihdrCommandWritesTheChunk : Obligations.IhdrCommandWritesTheChunk := by
  refine fun s h => ⟨fun hvalid => ?_, fun e he => exec_of_validate_error (i := .ihdr) rfl he⟩
  have hend : ending .ihdr s = .output (ihdrBytes (dims s)) := by rw [ending, chunkBy_engineTable h, ihdrBytes]
  rw [exec_of_valid_tableOk rfl rfl h hvalid hend, ihdrBytes_length]
  rfl

/-- Settles O41: IDAT ends with the write pass of its chunk, twelve bytes longer than the zlib stream. -/
theorem idatCommandWritesTheChunk : Obligations.IdatCommandWritesTheChunk := by
  refine fun s h => ⟨fun hvalid => ?_, fun e he => exec_of_validate_error (i := .idat) rfl he⟩
  have hend : ending .idat s = .output (idatBytes (dims s) (rasterOf s)) := by
    rw [ending, chunkBy_engineTable h, idatBytes]
  rw [exec_of_valid_tableOk rfl rfl h hvalid hend, idatBytes_rasterOf_length]
  rfl

/-- Settles O42: ENCPNG ends with one write pass of the four parts, its registers those of IDAT. -/
theorem encpngCommandWritesTheFile : Obligations.EncpngCommandWritesTheFile := by
  refine fun s h => ⟨fun hvalid => ?_, fun e he => exec_of_validate_error (i := .encpng) rfl he⟩
  have hend : ending .encpng s = .output (pngBytes (dims s) (rasterOf s)) := by
    rw [ending, chunkBy_engineTable h, chunkBy_engineTable h, pngBytes, ihdrBytes, idatBytes]
  rw [exec_of_valid_tableOk rfl rfl h hvalid hend, pngBytes_rasterOf_length]
  rfl

/-! ## Accepted bytes, in one pass or several (R78, R208) -/

/-- `s` once the sink has accepted all of `bytes`, `POS` left alone: they are in SINK, their answers are used up, `ERR` is 0. -/
def received (bytes : List Byte) (s : State) : State :=
  { s with
    err := .ok
    sink := s.sink ++ bytes
    sinkAnswers := s.sinkAnswers.drop bytes.length
    draws := s.draws + (bytes.length - s.sinkAnswers.length) }

theorem received_append (xs ys : List Byte) (s : State) : received (xs ++ ys) s = received ys (received xs s) := by
  simp only [received, List.length_append, List.append_assoc, List.drop_drop, List.length_drop, State.mk.injEq, true_and]
  omega

/-- The answers after some bytes are the later ones. -/
theorem answerAt_received (bytes : List Byte) (s : State) (k : Nat) :
    answerAt (received bytes s) k = answerAt s (bytes.length + k) := by
  unfold answerAt
  simp only [received, List.getElem?_drop, List.length_drop]
  split
  · rfl
  · next hnone =>
    have hlen : s.sinkAnswers.length ≤ bytes.length + k := List.getElem?_eq_none_iff.1 hnone
    congr 1
    omega

theorem SinkAccepts.mono {s : State} {m n : Nat} (h : SinkAccepts s n) (hmn : m ≤ n) : SinkAccepts s m :=
  fun k hk => h k (hk.trans_le hmn)

/-- What is accepted after some bytes: what was accepted, less these. -/
theorem SinkAccepts.received {s : State} {n : Nat} {bytes : List Byte} (h : SinkAccepts s (bytes.length + n)) :
    SinkAccepts (received bytes s) n := fun k hk =>
  (answerAt_received bytes s k).trans (h _ (Nat.add_lt_add_left hk _))

/-- A write pass of `n` bytes, all of them accepted. -/
theorem afterPass_of_accepts {bytes : List Byte} {n : Nat} {s : State} (hlen : bytes.length = n) (h : SinkAccepts s n) :
    afterPass bytes s = { received bytes s with pos := BitVec.ofNat 32 n } := by
  subst hlen
  have hcount := acceptedCount_eq_of_accepts h
  have hused : answersUsed s bytes.length = bytes.length := by
    rw [answersUsed, hcount]
    exact Nat.min_eq_left (Nat.le_succ _)
  rw [afterPass, hused, hcount, if_pos rfl, List.take_length]
  rfl

theorem received_pngBytes (d : Dims) (raster : List Byte) (s : State) :
    received (pngBytes d raster) s =
      received iendBytes (received (idatBytes d raster) (received (ihdrBytes d) (received sigBytes s))) := by
  rw [pngBytes, received_append, received_append, received_append]

theorem exec_sig_of_accepts {s : State} (hacc : SinkAccepts s 8) :
    exec .sig s = .next { received sigBytes s with cmd := 0x00000008, res := 8, pos := 8 } :=
  (sigCommandWritesTheSignature s).trans (congrArg _ (afterPass_of_accepts rfl hacc))

theorem exec_iend_of_accepts {s : State} (hacc : SinkAccepts s 12) :
    exec .iend s = .next { received iendBytes s with cmd := 0x0000000B, res := 12, pos := 12 } :=
  (iendCommandWritesTheEndChunk s).trans (congrArg _ (afterPass_of_accepts rfl hacc))

/-- `s` meets R41 (d), and its operands are those of a picture that passes `Validate`, with the dimensions and raster given. -/
structure HoldsPicture (s : State) (d : Dims) (raster : List Byte) : Prop where
  tableOk : TableOk s
  valid : Valid s
  dims : dims s = d
  raster : rasterOf s = raster

section
variable {s : State} {d : Dims} {raster : List Byte} (h : HoldsPicture s d raster)
include h

theorem exec_ihdr_of_accepts (hacc : SinkAccepts s 25) :
    exec .ihdr s = .next { received (ihdrBytes d) s with
      cmd := 0x00000009, tv := true, table := builtTable
      crc := crcAcc ([0x49, 0x48, 0x44, 0x52] ++ ihdrRecord d), res := 25, pos := 25 } := by
  obtain ⟨htable, hvalid, rfl, -⟩ := h
  rw [(ihdrCommandWritesTheChunk s htable).1 hvalid, afterPass_of_accepts (ihdrBytes_length _)]
  · rfl
  · exact hacc

theorem exec_idat_of_accepts (hacc : SinkAccepts s (blockLen d + 23)) :
    exec .idat s = .next { received (idatBytes d raster) s with
      cmd := 0x0000000A, tv := true, table := builtTable
      s1 := BitVec.ofNat 16 (adlerAcc (scanlineBlock d raster)).1
      s2 := BitVec.ofNat 16 (adlerAcc (scanlineBlock d raster)).2
      crc := crcAcc ([0x49, 0x44, 0x41, 0x54] ++ zlibOf d raster)
      res := BitVec.ofNat 32 (blockLen d + 23), pos := BitVec.ofNat 32 (blockLen d + 23) } := by
  obtain ⟨htable, hvalid, rfl, rfl⟩ := h
  rw [(idatCommandWritesTheChunk s htable).1 hvalid, afterPass_of_accepts (idatBytes_rasterOf_length s)]
  · simp only [received]
  · exact hacc

theorem exec_encpng_of_accepts (hacc : SinkAccepts s (blockLen d + 68)) :
    exec .encpng s = .next { received (pngBytes d raster) s with
      cmd := 0x0000000C, tv := true, table := builtTable
      s1 := BitVec.ofNat 16 (adlerAcc (scanlineBlock d raster)).1
      s2 := BitVec.ofNat 16 (adlerAcc (scanlineBlock d raster)).2
      crc := crcAcc ([0x49, 0x44, 0x41, 0x54] ++ zlibOf d raster)
      res := BitVec.ofNat 32 (blockLen d + 68), pos := BitVec.ofNat 32 (blockLen d + 68) } := by
  obtain ⟨htable, hvalid, rfl, rfl⟩ := h
  rw [(encpngCommandWritesTheFile s htable).1 hvalid, afterPass_of_accepts (pngBytes_rasterOf_length s)]
  · simp only [received]
  · exact hacc

end

/-- Settles O44: each of the four commands receives its part of the file, one after another as ENCPNG receives them together;
IDAT writes over what IHDR left in `CRC`. -/
theorem encpngEqualsItsParts : Obligations.EncpngEqualsItsParts := by
  intro s h hvalid hacc
  have hsig : SinkAccepts s (8 + (blockLen (dims s) + 60)) := hacc.mono (by omega)
  have hihdr : SinkAccepts (received sigBytes s) (25 + (blockLen (dims s) + 35)) := hsig.received.mono (by omega)
  have hidat : SinkAccepts (received (ihdrBytes (dims s)) (received sigBytes s)) (blockLen (dims s) + 23 + 12) :=
    hihdr.received.mono (by omega)
  have hiend : SinkAccepts (received (idatBytes (dims s) (rasterOf s))
      (received (ihdrBytes (dims s)) (received sigBytes s))) 12 :=
    SinkAccepts.received (hidat.mono (by rw [idatBytes_rasterOf_length]))
  refine ⟨_, _, _, _, _, exec_sig_of_accepts (hsig.mono (by omega)),
    exec_ihdr_of_accepts (d := dims s) (raster := rasterOf s) ⟨h, hvalid, rfl, rfl⟩ (hihdr.mono (by omega)),
    exec_idat_of_accepts (d := dims s) (raster := rasterOf s) ⟨fun _ => rfl, hvalid, rfl, rfl⟩ (hidat.mono (by omega)),
    exec_iend_of_accepts hiend,
    exec_encpng_of_accepts ⟨h, hvalid, rfl, rfl⟩ hacc, rfl, rfl, rfl, rfl, ?_⟩
  rw [received_pngBytes]
  simp only [received]

end Sys2Proof.Machine


/-! PROOFS. The statements about the host interface (46_host_interface.md). A step with a transaction pending is `perform` of that
transaction (`step_of_pending`), with one equation for each of the five kinds; each statement is read off its equation. -/

namespace Sys2Proof.Machine

/-! ## Every command completes (R235) -/

theorem finish_cmd (e : Ending) (s : State) : (e.finish s).cmd = s.cmd := by cases e <;> rfl

theorem outcome_cmd (i : Instr) (s : State) : (outcome i s).cmd = encode i := by
  unfold outcome
  cases preCheck i s with
  | none => exact finish_cmd (ending i s) (computed i s)
  | some e => rfl

/-- Settles O47: a command ends in its `outcome`, and neither the error of its check nor its end writes `CMD` again. -/
theorem everyCommandCompletes : Obligations.EveryCommandCompletes := fun i s =>
  ⟨outcome i s, exec_eq_outcome i s, outcome_cmd i s⟩

/-! ## One transaction a step (R230, R75) -/

/-- A step performs the transaction at the head of the pending list. -/
theorem step_of_pending {s : State} {tr : Transaction} {rest : List Transaction} (h : s.pending = tr :: rest) :
    step s = perform tr { s with pending := rest } := by
  rw [step, hostStep, h]

/-- A register write as a step (R232). -/
theorem step_wrreg {s : State} {r : Reg} {v : Word} {rest : List Transaction} (h : s.pending = .wrreg r v :: rest) :
    step s = writeReg r v { s with pending := rest, reply := .nothing } := step_of_pending h

/-- A reset as a step (R234). -/
theorem step_reset {s : State} {rest : List Transaction} (h : s.pending = .reset :: rest) :
    step s = .next (resetCore { s with pending := rest }) := step_of_pending h

/-- A write of MEM below `MEM_SIZE` as a step (R233). -/
theorem step_wrmem_inside {s : State} {a : Nat} {b : Byte} {rest : List Transaction} (h : s.pending = .wrmem a b :: rest)
    (ha : a < s.memSize) : step s = .next { s with mem := memSet s.mem a b, pending := rest, reply := .nothing } :=
  (step_of_pending h).trans (if_pos ha)

/-- A write of MEM at or above `MEM_SIZE` as a step (U5). -/
theorem step_wrmem_outside {s : State} {a : Nat} {b : Byte} {rest : List Transaction} (h : s.pending = .wrmem a b :: rest)
    (ha : s.memSize ≤ a) : step s = .refused .noSuchMemAddress :=
  (step_of_pending h).trans (if_neg ha.not_gt)

/-- A read of MEM below `MEM_SIZE` as a step (R236). -/
theorem step_rdmem_inside {s : State} {a : Nat} {rest : List Transaction} (h : s.pending = .rdmem a :: rest)
    (ha : a < s.memSize) : step s = .next { s with pending := rest, reply := .byte (memByte s.mem a) } :=
  (step_of_pending h).trans (if_pos ha)

/-- A read of MEM at or above `MEM_SIZE` as a step (U5). -/
theorem step_rdmem_outside {s : State} {a : Nat} {rest : List Transaction} (h : s.pending = .rdmem a :: rest)
    (ha : s.memSize ≤ a) : step s = .refused .noSuchMemAddress :=
  (step_of_pending h).trans (if_neg ha.not_gt)

/-! ## The issue of a command (R235, R91) -/

theorem issue_of_decode {w : Word} {i : Instr} (h : decode w = .ok i) (s : State) : issue w s = exec i s := by
  rw [issue, h]

/-- A 32-bit word placed for the next step is the host's next write to `CMD`, whole. -/
theorem withFetchWord_toNat (s : State) (w : Word) :
    s.withFetchWord 32 w.toNat = { s with pending := .wrreg .cmd w :: s.pending } := by
  rw [State.withFetchWord, enqueueWord, Nat.mod_eq_of_lt w.isLt, BitVec.ofNat_toNat, BitVec.setWidth_eq]

/-- Settles O4: a `CMD` write issues its word, and the word placed from outside is such a write. -/
theorem stepRunsTheIssuedCommand : Obligations.StepRunsTheIssuedCommand := by
  have hissue : ∀ s w rest i, s.pending = .wrreg .cmd w :: rest → decode w = .ok i →
      step s = exec i { s with pending := rest, reply := .nothing } := fun s w rest i hp hd =>
    (step_wrreg hp).trans (issue_of_decode hd _)
  refine ⟨hissue, fun s w i hd => ?_⟩
  rw [withFetchWord_toNat]
  exact hissue _ w s.pending i rfl hd

/-! ## Reset (R234) -/

/-- Settles O7: `resetCore` takes each register from the start state and the rest from the state before. -/
theorem resetTransactionClearsTheCore : Obligations.ResetTransactionClearsTheCore := by
  intro s rest h
  exact ⟨resetCore { s with pending := rest }, step_reset h,
    rfl, rfl, rfl, rfl, rfl, rfl, rfl, rfl, rfl, rfl, rfl, rfl, rfl, rfl, rfl, rfl,
    rfl, rfl, rfl, rfl, rfl, rfl⟩

/-! ## Register reads and writes (R231, R232) -/

theorem readTbldat_of_valid {s : State} (h : s.tv = true) : readTbldat s = (tableAt s.table s.tblidx, s) := if_pos h

theorem readTbldat_of_not_valid {s : State} (h : s.tv = false) :
    readTbldat s = (Config.tbldatDraw s.draws, { s with draws := s.draws + 1 }) := by
  rw [readTbldat, h]
  rfl

/-- A register whose value and state after are known, read as a step. -/
theorem step_rdreg_eq {s u : State} {r : Reg} {v : Word} {rest : List Transaction} (h : s.pending = .rdreg r :: rest)
    (hread : readReg r { s with pending := rest } = (v, u)) : step s = .next { u with reply := .word v } := by
  rw [step_rdreg h, hread]
  rfl

/-- The two halves of `ADLER` side by side, as a number (R36). -/
theorem adlerWord_eq_ofNat (s : State) : adlerWord s = BitVec.ofNat 32 (s.s2.toNat * 65536 + s.s1.toNat) := by
  rw [← adlerWord_toNat, BitVec.ofNat_toNat, BitVec.setWidth_eq]

/-- Settles O11: a read of `TBLDAT` depends on `TV`, `ADLER` and `TBLIDX` are read as numbers, and every other register as it
stands. -/
theorem registerReadsReturnTheRegister : Obligations.RegisterReadsReturnTheRegister := by
  intro s rest r h
  refine ⟨fun htv => step_rdreg_eq (u := { s with pending := rest }) h ?_, ?_⟩
  · cases r
    case tbldat => exact readTbldat_of_valid (htv rfl)
    case adler => exact Prod.ext (adlerWord_eq_ofNat s) rfl
    case tblidx => exact Prod.ext (BitVec.ofNat_toNat 32 s.tblidx).symm rfl
    all_goals rfl
  · rintro rfl htv
    exact ⟨_, step_rdreg_eq h (readTbldat_of_not_valid htv)⟩

theorem extractLsb'_low_byte (v : Word) : v.extractLsb' 0 8 = BitVec.ofNat 8 (v.toNat % 256) := by
  refine BitVec.eq_of_toNat_eq ?_
  rw [BitVec.extractLsb'_toNat, Nat.shiftRight_zero, BitVec.toNat_ofNat, Nat.mod_mod]

/-- Settles O12: the step is `writeReg`, which keeps the low byte for `TBLIDX`. -/
theorem registerWritesStoreOrAreIgnored : Obligations.RegisterWritesStoreOrAreIgnored := by
  intro s rest r v h
  rw [step_wrreg h]
  cases r
  case tblidx => rw [writeReg, extractLsb'_low_byte]
  all_goals rfl

/-! ## Memory transactions (R233, R236) -/

/-- Settles O13: the new MEM is `memSet`, whose laws are that it is canonical and how it reads. -/
theorem memoryWriteChangesOneByte : Obligations.MemoryWriteChangesOneByte := fun s a b _ hwf hp ha =>
  ⟨memSet s.mem a b, step_wrmem_inside hp ha, memSet_wf hwf a b, fun x => memByte_memSet hwf a x b⟩

/-- Settles O14: the step is the read inside MEM. -/
theorem memoryReadReturnsTheByte : Obligations.MemoryReadReturnsTheByte := fun _ _ _ => step_rdmem_inside

/-- Settles O15: both memory transactions are refused at such an address. -/
theorem memoryTransactionOutsideIsRefused : Obligations.MemoryTransactionOutsideIsRefused := fun _ _ _ _ ha =>
  ⟨fun hp => step_wrmem_outside hp ha, fun hp => step_rdmem_outside hp ha⟩

end Sys2Proof.Machine


/-! PROOFS. The statements about errors (60_exceptions.md). A word that is no command does not decode, so its issue raises `ILLEGAL`
(`issue_of_decode_error`); an error other than `IO` is that of the command's check (`exec_cases`, `finish_err`). -/

namespace Sys2Proof.Machine

/-- A word that is no command's word is rejected by the decoder (R98). -/
theorem exists_decode_eq_error {w : Word} (h : ∀ i, w ≠ encode i) : ∃ e, decode w = .error e := by
  cases hd : decode w with
  | error e => exact ⟨e, rfl⟩
  | ok i => exact absurd ((decode_eq_ok_iff_encode w i).1 hd) (h i)

theorem issue_of_decode_error {w : Word} {e : DecodeError} (h : decode w = .error e) (s : State) :
    issue w s = .next (raiseErr .illegal { s with cmd := w }) := by
  rw [issue, h]

/-- Settles O5: the write issues the word, which the decoder rejects. -/
theorem illegalWordOnlyRaisesIllegal : Obligations.IllegalWordOnlyRaisesIllegal := by
  refine ⟨rfl, fun s w rest hp hw => ?_⟩
  obtain ⟨e, hd⟩ := exists_decode_eq_error hw
  exact (step_wrreg hp).trans (issue_of_decode_error hd _)

/-- Settles O50: a command whose check passed ends with `ERR` 0 or `IO`, so the error is that of the check, which leaves the state
with the command's word in `CMD` and nothing else done. -/
theorem errorsBeforeTheWritePassChangeNothing : Obligations.ErrorsBeforeTheWritePassChangeNothing := by
  intro i s t h hok hio
  obtain ⟨e, -, rfl⟩ | ⟨-, rfl⟩ := exec_cases h
  · rfl
  · exact ((finish_err (ending i s) (computed i s)).elim hok hio).elim

end Sys2Proof.Machine


/-! PROOFS. The statements about reset and hazards (70_reset_and_hazards.md). A step with no transaction pending takes the other
branch of `hostStep` than `step_of_pending`. -/

namespace Sys2Proof.Machine

/-- Settles O6: `hostStep` has nothing to perform (R281). -/
theorem idleWithoutTransactions : Obligations.IdleWithoutTransactions := by
  intro s h
  rw [step, hostStep, h]

end Sys2Proof.Machine
